-- ==== Sys2Proof/Word.lean ====
section
/-! DEFINITION. The bit-vector types the block moves (30_encoding.md R60, R66, R70; 10_state.md R24). -/

namespace Sys2Proof

/-- A 64-bit value: a hardware decimal word, a BCD digit stream, an `spd64`, an `i64` or a result (R60, R66, R67). -/
abbrev Word := BitVec 64

/-- A 10-bit densely packed decimal group (R24). -/
abbrev Group := BitVec 10

/-- Three BCD digits: hundreds in bits 11..8, tens in 7..4, units in 3..0 (R24). -/
abbrev Digits3 := BitVec 12

/-- One request on the request port, 102 bits (R70). -/
abbrev Request := BitVec 102

/-- One byte of the host's packed-decimal sequences (R67). -/
abbrev Byte := BitVec 8

end Sys2Proof
end

