-- ==== Sys2Proof/Syntax.lean ====
section
/-! DEFINITION. The 22 operations (30_encoding.md R72) as one inductive, each with the operand bits that R73 says it
reads. -/

namespace Sys2Proof

/-- One constructor per row of the operation table (R72). The operand names are those of R73 and of each rule. -/
inductive Instr where
  /-- `DPD2BCD` (40_tables.md R100): `g = a[9:0]`. -/
  | dpd2bcd (g : Group)
  /-- `BCD2DPD` (R101): `d = a[11:0]`. -/
  | bcd2dpd (d : Digits3)
  /-- `COMBO` (R102): `c = a[4:0]`. -/
  | combo (c : BitVec 5)
  /-- `COMBOENC` (R103): `digit = a[5:2]`, `exphi = a[1:0]`. -/
  | comboenc (digit : BitVec 4) (exphi : BitVec 2)
  /-- `POW10` (R104): `i = a[4:0]`. -/
  | pow10 (i : BitVec 5)
  /-- `ISZERO` (41_word_decode.md R121): a word. -/
  | iszero (w : Word)
  /-- `WSIGN` (R122): a word. -/
  | wsign (w : Word)
  /-- `BEXP` (R123): a word. -/
  | bexp (w : Word)
  /-- `UEXP` (R124): a word. -/
  | uexp (w : Word)
  /-- `XDIG` (R125): a word. -/
  | xdig (w : Word)
  /-- `UVAL` (R126): a word. -/
  | uval (w : Word)
  /-- `SIGD` (R127): a word. -/
  | sigd (w : Word)
  /-- `SIGNUM` (R128): a word. -/
  | signum (w : Word)
  /-- `BIAS` (42_word_encode.md R141): `q = e`, the unbiased exponent, an `i32`. -/
  | bias (q : BitVec 32)
  /-- `ENCBCD` (R142): sign `s`, biased exponent `e` (an `i32`), BCD stream `a`. -/
  | encbcd (sg : BitVec 1) (x : BitVec 32) (b : Word)
  /-- `ENCLONG` (R143): biased exponent `e` (an `i32`), integer `a` (an `i64`). -/
  | enclong (x : BitVec 32) (n : Word)
  /-- `ENCPD` (R144): biased exponent `e` (an `i32`), signed packed value `a`. -/
  | encpd (x : BitVec 32) (p : Word)
  /-- `W2PD` (R145): a word. -/
  | w2pd (w : Word)
  /-- `ZFIX` (R146): a word. -/
  | zfix (w : Word)
  /-- `PDSIGN` (43_ancillary.md R160): `n4 = a[3:0]`. -/
  | pdsign (n4 : BitVec 4)
  /-- `RMMAP` (R161): `m = a[2:0]`. -/
  | rmmap (m : BitVec 3)
  /-- `NDIG` (R162): `n = a[63:0]`, an `i64`. -/
  | ndig (n : Word)
  deriving DecidableEq, Repr

end Sys2Proof
end

