-- ==== Sys2Proof/WellFormed.lean ====
section
/-! DEFINITION. Which instructions are well formed. The widths of the operands are in the types of `Instr`; the one
malformed request that the types can still spell is a `POW10` index outside the table (20_memory.md R43,
60_exceptions.md R202 step 2). -/

namespace Sys2Proof

/-- True exactly when the request is not malformed: the operand names an entry of the table it indexes (20_memory.md
R43). Only `POW10` has a 5-bit index into a table of 19 entries. -/
def Instr.wf : Instr → Bool
  | .dpd2bcd _ => true
  | .bcd2dpd _ => true
  | .combo _ => true
  | .comboenc _ _ => true
  | .pow10 i => i.toNat < 19
  | .iszero _ => true
  | .wsign _ => true
  | .bexp _ => true
  | .uexp _ => true
  | .xdig _ => true
  | .uval _ => true
  | .sigd _ => true
  | .signum _ => true
  | .bias _ => true
  | .encbcd _ _ _ => true
  | .enclong _ _ => true
  | .encpd _ _ => true
  | .w2pd _ => true
  | .zfix _ => true
  | .pdsign _ => true
  | .rmmap _ => true
  | .ndig _ => true

end Sys2Proof
end

