-- ==== Sys2Proof/Decode.lean ====
section
/-! DEFINITION. From a 102-bit request to an instruction or a named rejection, and back (30_encoding.md R70, R72 to
R75). -/

namespace Sys2Proof

/-! ### The fields of a request (R70, R75) -/

/-- Bits 101..97: the operation code. -/
def opField (q : Request) : BitVec 5 := q.extractLsb' 97 5

/-- Bit 96: the sign operand. -/
def sField (q : Request) : BitVec 1 := q.extractLsb' 96 1

/-- Bits 95..64: the exponent operand, read as an `i32` by the operations that read it. -/
def eField (q : Request) : BitVec 32 := q.extractLsb' 64 32

/-- Bits 63..0: the main operand. -/
def aField (q : Request) : Word := q.extractLsb' 0 64

/-- A request laid out from its four fields (R70). -/
def mkRequest (op : BitVec 5) (s : BitVec 1) (e : BitVec 32) (a : Word) : Request := op ++ s ++ e ++ a

/-! ### Which operand bits an operation reads (R73) -/

/-- How many low bits of `a` the operation reads; the rows not listed read all 64. -/
def readsA (op : BitVec 5) : Nat :=
  match op.toNat with
  | 0x00 => 10
  | 0x01 => 12
  | 0x02 => 5
  | 0x03 => 6
  | 0x04 => 5
  | 0x10 => 0
  | 0x18 => 4
  | 0x19 => 3
  | _ => 64

/-- Does the operation read `e`? `BIAS`, `ENCBCD`, `ENCLONG` and `ENCPD` do. -/
def readsE (op : BitVec 5) : Bool :=
  match op.toNat with
  | 0x10 => true
  | 0x11 => true
  | 0x12 => true
  | 0x13 => true
  | _ => false

/-- Does the operation read `s`? Only `ENCBCD` does. -/
def readsS (op : BitVec 5) : Bool :=
  match op.toNat with
  | 0x11 => true
  | _ => false

/-- Every operand bit that the operation does not read is 0 (R73). -/
def unreadClear (q : Request) : Bool :=
  (aField q >>> readsA (opField q) == 0#64)
    && (readsE (opField q) || eField q == 0#32)
    && (readsS (opField q) || sField q == 0#1)

/-! ### The operation map (R72) -/

/-- The operation a request names, with its operands; nothing for a reserved code (R74). -/
def operation (q : Request) : Option Instr :=
  let a := aField q
  match (opField q).toNat with
  | 0x00 => some (.dpd2bcd (a.extractLsb' 0 10))
  | 0x01 => some (.bcd2dpd (a.extractLsb' 0 12))
  | 0x02 => some (.combo (a.extractLsb' 0 5))
  | 0x03 => some (.comboenc (a.extractLsb' 2 4) (a.extractLsb' 0 2))
  | 0x04 => some (.pow10 (a.extractLsb' 0 5))
  | 0x08 => some (.iszero a)
  | 0x09 => some (.wsign a)
  | 0x0A => some (.bexp a)
  | 0x0B => some (.uexp a)
  | 0x0C => some (.xdig a)
  | 0x0D => some (.uval a)
  | 0x0E => some (.sigd a)
  | 0x0F => some (.signum a)
  | 0x10 => some (.bias (eField q))
  | 0x11 => some (.encbcd (sField q) (eField q) a)
  | 0x12 => some (.enclong (eField q) a)
  | 0x13 => some (.encpd (eField q) a)
  | 0x14 => some (.w2pd a)
  | 0x15 => some (.zfix a)
  | 0x18 => some (.pdsign (a.extractLsb' 0 4))
  | 0x19 => some (.rmmap (a.extractLsb' 0 3))
  | 0x1A => some (.ndig a)
  | _ => none

/-- Why a request is malformed before any operation sees it (60_exceptions.md R202 steps 1 and 2). -/
inductive DecodeError where
  /-- `op` is one of the ten reserved codes (R74). -/
  | reservedOp (op : BitVec 5)
  /-- A bit of `s`, `e` or `a` that the operation does not read is 1 (R73). -/
  | unusedBits (op : BitVec 5)
  deriving DecidableEq, Repr

/-- The decoder: reserved code first, then unread operand bits (60_exceptions.md R202 steps 1 and 2). -/
def decode (q : Request) : Except DecodeError Instr :=
  match operation q with
  | none => .error (.reservedOp (opField q))
  | some i => if unreadClear q then .ok i else .error (.unusedBits (opField q))

/-! ### The encoder (R70, R72, R73) -/

/-- The request of an instruction: its code, its operands in their places, 0 in every bit it does not read. -/
def encode : Instr → Request
  | .dpd2bcd g => mkRequest 0x00 0 0 (g.setWidth 64)
  | .bcd2dpd d => mkRequest 0x01 0 0 (d.setWidth 64)
  | .combo c => mkRequest 0x02 0 0 (c.setWidth 64)
  | .comboenc digit exphi => mkRequest 0x03 0 0 ((digit ++ exphi).setWidth 64)
  | .pow10 i => mkRequest 0x04 0 0 (i.setWidth 64)
  | .iszero w => mkRequest 0x08 0 0 w
  | .wsign w => mkRequest 0x09 0 0 w
  | .bexp w => mkRequest 0x0A 0 0 w
  | .uexp w => mkRequest 0x0B 0 0 w
  | .xdig w => mkRequest 0x0C 0 0 w
  | .uval w => mkRequest 0x0D 0 0 w
  | .sigd w => mkRequest 0x0E 0 0 w
  | .signum w => mkRequest 0x0F 0 0 w
  | .bias q => mkRequest 0x10 0 q 0
  | .encbcd sg x b => mkRequest 0x11 sg x b
  | .enclong x n => mkRequest 0x12 0 x n
  | .encpd x p => mkRequest 0x13 0 x p
  | .w2pd w => mkRequest 0x14 0 0 w
  | .zfix w => mkRequest 0x15 0 0 w
  | .pdsign n4 => mkRequest 0x18 0 0 (n4.setWidth 64)
  | .rmmap m => mkRequest 0x19 0 0 (m.setWidth 64)
  | .ndig n => mkRequest 0x1A 0 0 n

/-- The request that a number of the opcode table stands for: the table numbers a request as R70 does (26 hexadecimal
digits, the top two of their 104 bits zero); a number of more than 102 bits is no request. -/
def tableWord (nbits w : Nat) : Option Request :=
  let v := w % 2 ^ nbits
  if v < 2 ^ 102 then some (BitVec.ofNat 102 v) else none

/-- The instruction the decoder reads from a word of the opcode table, `none` where it rejects it. -/
def decodeTableWord (nbits w : Nat) : Option Instr :=
  match tableWord nbits w with
  | none => none
  | some q =>
    match decode q with
    | .ok i => some i
    | .error _ => none

end Sys2Proof
end

