-- ==== Sys2Proof/Config.lean ====
section
/-! DEFINITION. What the spec leaves OPEN to an implementation: the three parameters of 00_scope.md R6 that have no
value (92_eei_decisions.md, "Open parameters"). None has a body, so no proof can see a value. -/

namespace Sys2Proof

/-- `HW_AVAIL`: the value the environment straps on `hw_avail` (00_scope.md R6, 10_state.md R27). Log entry 5. -/
opaque Config.hwAvail : Bool

/-- `COMBO30`: the contents of `ROM_COMBO[30]` (10_state.md R25). Log entry 4. -/
opaque Config.combo30 : BitVec 8

/-- `COMBO31`: the contents of `ROM_COMBO[31]` (10_state.md R25). Log entry 4. -/
opaque Config.combo31 : BitVec 8

end Sys2Proof
end

