-- ==== Sys2Proof/Machine/Rom.lean ====
section
/-! DEFINITION. The contents of the three tables and the decided parameters (10_state.md R24 to R26; 00_scope.md R6).
The spec marks the values of R24 and R25 as its own supply from general knowledge (93_implementation_defined.md G1, G2);
the model takes them from the rules. -/

namespace Sys2Proof.Machine

/-- `ZERO_CONST` (00_scope.md R6, 41_word_decode.md R121). -/
def Rom.zeroConst : Word := 0x2238000000000000#64

/-- `BIAS` (00_scope.md R6). -/
def Rom.bias : Nat := 398

/-- `BEXP_MAX`, the greatest legal biased exponent (00_scope.md R6, 30_encoding.md R64). -/
def Rom.bexpMax : Nat := 767

/-- Rows 0x000 to 0x0F0 of the table of 10_state.md R24, each row its 16 entries of three digits, the first entry leftmost. -/
def Rom.dpdRows0 : List Nat := [
  0x000_001_002_003_004_005_006_007_008_009_080_081_800_801_880_881,
  0x010_011_012_013_014_015_016_017_018_019_090_091_810_811_890_891,
  0x020_021_022_023_024_025_026_027_028_029_082_083_820_821_808_809,
  0x030_031_032_033_034_035_036_037_038_039_092_093_830_831_818_819,
  0x040_041_042_043_044_045_046_047_048_049_084_085_840_841_088_089,
  0x050_051_052_053_054_055_056_057_058_059_094_095_850_851_098_099,
  0x060_061_062_063_064_065_066_067_068_069_086_087_860_861_888_889,
  0x070_071_072_073_074_075_076_077_078_079_096_097_870_871_898_899,
  0x100_101_102_103_104_105_106_107_108_109_180_181_900_901_980_981,
  0x110_111_112_113_114_115_116_117_118_119_190_191_910_911_990_991,
  0x120_121_122_123_124_125_126_127_128_129_182_183_920_921_908_909,
  0x130_131_132_133_134_135_136_137_138_139_192_193_930_931_918_919,
  0x140_141_142_143_144_145_146_147_148_149_184_185_940_941_188_189,
  0x150_151_152_153_154_155_156_157_158_159_194_195_950_951_198_199,
  0x160_161_162_163_164_165_166_167_168_169_186_187_960_961_988_989,
  0x170_171_172_173_174_175_176_177_178_179_196_197_970_971_998_999]

/-- Rows 0x100 to 0x1F0 of the table of 10_state.md R24, each row its 16 entries of three digits, the first entry leftmost. -/
def Rom.dpdRows1 : List Nat := [
  0x200_201_202_203_204_205_206_207_208_209_280_281_802_803_882_883,
  0x210_211_212_213_214_215_216_217_218_219_290_291_812_813_892_893,
  0x220_221_222_223_224_225_226_227_228_229_282_283_822_823_828_829,
  0x230_231_232_233_234_235_236_237_238_239_292_293_832_833_838_839,
  0x240_241_242_243_244_245_246_247_248_249_284_285_842_843_288_289,
  0x250_251_252_253_254_255_256_257_258_259_294_295_852_853_298_299,
  0x260_261_262_263_264_265_266_267_268_269_286_287_862_863_888_889,
  0x270_271_272_273_274_275_276_277_278_279_296_297_872_873_898_899,
  0x300_301_302_303_304_305_306_307_308_309_380_381_902_903_982_983,
  0x310_311_312_313_314_315_316_317_318_319_390_391_912_913_992_993,
  0x320_321_322_323_324_325_326_327_328_329_382_383_922_923_928_929,
  0x330_331_332_333_334_335_336_337_338_339_392_393_932_933_938_939,
  0x340_341_342_343_344_345_346_347_348_349_384_385_942_943_388_389,
  0x350_351_352_353_354_355_356_357_358_359_394_395_952_953_398_399,
  0x360_361_362_363_364_365_366_367_368_369_386_387_962_963_988_989,
  0x370_371_372_373_374_375_376_377_378_379_396_397_972_973_998_999]

/-- Rows 0x200 to 0x2F0 of the table of 10_state.md R24, each row its 16 entries of three digits, the first entry leftmost. -/
def Rom.dpdRows2 : List Nat := [
  0x400_401_402_403_404_405_406_407_408_409_480_481_804_805_884_885,
  0x410_411_412_413_414_415_416_417_418_419_490_491_814_815_894_895,
  0x420_421_422_423_424_425_426_427_428_429_482_483_824_825_848_849,
  0x430_431_432_433_434_435_436_437_438_439_492_493_834_835_858_859,
  0x440_441_442_443_444_445_446_447_448_449_484_485_844_845_488_489,
  0x450_451_452_453_454_455_456_457_458_459_494_495_854_855_498_499,
  0x460_461_462_463_464_465_466_467_468_469_486_487_864_865_888_889,
  0x470_471_472_473_474_475_476_477_478_479_496_497_874_875_898_899,
  0x500_501_502_503_504_505_506_507_508_509_580_581_904_905_984_985,
  0x510_511_512_513_514_515_516_517_518_519_590_591_914_915_994_995,
  0x520_521_522_523_524_525_526_527_528_529_582_583_924_925_948_949,
  0x530_531_532_533_534_535_536_537_538_539_592_593_934_935_958_959,
  0x540_541_542_543_544_545_546_547_548_549_584_585_944_945_588_589,
  0x550_551_552_553_554_555_556_557_558_559_594_595_954_955_598_599,
  0x560_561_562_563_564_565_566_567_568_569_586_587_964_965_988_989,
  0x570_571_572_573_574_575_576_577_578_579_596_597_974_975_998_999]

/-- Rows 0x300 to 0x3F0 of the table of 10_state.md R24, each row its 16 entries of three digits, the first entry leftmost. -/
def Rom.dpdRows3 : List Nat := [
  0x600_601_602_603_604_605_606_607_608_609_680_681_806_807_886_887,
  0x610_611_612_613_614_615_616_617_618_619_690_691_816_817_896_897,
  0x620_621_622_623_624_625_626_627_628_629_682_683_826_827_868_869,
  0x630_631_632_633_634_635_636_637_638_639_692_693_836_837_878_879,
  0x640_641_642_643_644_645_646_647_648_649_684_685_846_847_688_689,
  0x650_651_652_653_654_655_656_657_658_659_694_695_856_857_698_699,
  0x660_661_662_663_664_665_666_667_668_669_686_687_866_867_888_889,
  0x670_671_672_673_674_675_676_677_678_679_696_697_876_877_898_899,
  0x700_701_702_703_704_705_706_707_708_709_780_781_906_907_986_987,
  0x710_711_712_713_714_715_716_717_718_719_790_791_916_917_996_997,
  0x720_721_722_723_724_725_726_727_728_729_782_783_926_927_968_969,
  0x730_731_732_733_734_735_736_737_738_739_792_793_936_937_978_979,
  0x740_741_742_743_744_745_746_747_748_749_784_785_946_947_788_789,
  0x750_751_752_753_754_755_756_757_758_759_794_795_956_957_798_799,
  0x760_761_762_763_764_765_766_767_768_769_786_787_966_967_988_989,
  0x770_771_772_773_774_775_776_777_778_779_796_797_976_977_998_999]

/-- All 64 rows, in index order. -/
def Rom.dpdRows : List Nat := Rom.dpdRows0 ++ Rom.dpdRows1 ++ Rom.dpdRows2 ++ Rom.dpdRows3

/-- Entry `g` of the printed table: place `g mod 16` of row `g div 16`; three digits in bits 11..0, bits 15..12 zero
(R24). -/
def Rom.dpdAt (g : Nat) : BitVec 16 :=
  BitVec.ofNat 16 ((Rom.dpdRows.getD (g / 16) 0 >>> (12 * (15 - g % 16))) % 4096)

/-- `ROM_DPD` (R24): 1024 entries in index order. Where R30 (c) counts 976 values with exactly one pre-image, the printed
table has 992, and the model follows the table (log entry 17, DEDUCED). Irreducible, so that comparing two states never
unfolds it; the kernel evaluates it all the same. -/
@[irreducible] def Rom.dpd : Vector (BitVec 16) 1024 := ⟨((List.range 1024).map Rom.dpdAt).toArray, by simp⟩

/-- `ROM_COMBO` (R25): entries 0 to 29 as printed, entries 30 and 31 the open parameters. -/
def Rom.combo : Vector (BitVec 8) 32 :=
  #v[0, 4, 8, 12, 16, 20, 24, 28,
     1, 5, 9, 13, 17, 21, 25, 29,
     2, 6, 10, 14, 18, 22, 26, 30,
     32, 36, 33, 37, 34, 38, Config.combo30, Config.combo31]

/-- `ROM_POW10` (R26). -/
def Rom.pow10 : Vector (BitVec 64) 19 :=
  #v[1, 10, 100, 1000, 10000, 100000, 1000000, 10000000, 100000000, 1000000000, 10000000000,
     100000000000, 1000000000000, 10000000000000, 100000000000000, 1000000000000000,
     10000000000000000, 100000000000000000, 1000000000000000000]

end Sys2Proof.Machine
end

