-- ==== Sys2Proof/Machine/Operands.lean ====
section
/-! DEFINITION. Reading the operands: the fields of a hardware decimal word (30_encoding.md R60, R61), nibbles and BCD
digit streams (R66), sign codes (R68), and the tests on a word that read no table (R63, 41_word_decode.md R121). -/

namespace Sys2Proof.Machine

/-! ### Fields of a hardware decimal word (R60, R61) -/

/-- Bit 63, 1 = negative. -/
def sign (w : Word) : BitVec 1 := w.extractLsb' 63 1

/-- Bits 62..58, the combination field. -/
def cf (w : Word) : BitVec 5 := w.extractLsb' 58 5

/-- Bits 57..50, the low 8 bits of the biased exponent. -/
def ec (w : Word) : BitVec 8 := w.extractLsb' 50 8

/-- Bits 49..0, the mantissa continuation. -/
def cc (w : Word) : BitVec 50 := w.extractLsb' 0 50

/-- Bits 60..58, the low three bits of the combination field. -/
def zsub (w : Word) : BitVec 3 := w.extractLsb' 58 3

/-- Group `k` of the mantissa continuation, `k` = 0 to 4, the most significant first: `w[49-10k : 40-10k]`. -/
def grp (w : Word) (k : Nat) : Group := w.extractLsb' (40 - 10 * k) 10

/-- A special word: combination field 30 or 31 (R63). -/
def special (w : Word) : Bool := 30 ≤ (cf w).toNat

/-- The zero test with the constant it compares with as an argument (41_word_decode.md R121). -/
def isZeroWith (zc w : Word) : Bool := w == zc || (cc w == 0#50 && zsub w == 0#3)

/-- `is_zero(w)` (41_word_decode.md R120, R121). -/
def isZero (w : Word) : Bool := isZeroWith Rom.zeroConst w

/-! ### Digits -/

/-- Nibble `k`: bits `4k+3 .. 4k` (00_scope.md R7). -/
def nibble {n : Nat} (b : BitVec n) (k : Nat) : BitVec 4 := b.extractLsb' (4 * k) 4

/-- The lowest `n` nibbles are all digits 0 to 9 (R66). -/
def validDigits {m : Nat} (b : BitVec m) (n : Nat) : Bool :=
  (List.range n).all fun k => (nibble b k).toNat ≤ 9

/-- The value of the lowest `n` nibbles of a stream. -/
def bcdValueLow (b : Word) : Nat → Nat
  | 0 => 0
  | n + 1 => bcdValueLow b n + (nibble b n).toNat * 10 ^ n

/-- `bcd_value(b)`: the sum over k = 0 to 15 of nibble `k` times 10^k (R66). -/
def bcdValue (b : Word) : Nat := bcdValueLow b 16

/-- The number whose lowest `n` nibbles are the lowest `n` decimal digits of `m`. -/
def bcdDigitsLow (m : Nat) : Nat → Nat
  | 0 => 0
  | n + 1 => bcdDigitsLow m n + m / 10 ^ n % 10 * 16 ^ n

/-- The BCD stream of a number below 10^16: nibble `k` is `(m div 10^k) mod 10` (42_word_encode.md R143). -/
def bcdOf (m : Nat) : Word := BitVec.ofNat 64 (bcdDigitsLow m 16)

/-- How many of the nibbles `n - 1`, `n - 2`, ... are zero before the first that is not (41_word_decode.md R127). -/
def leadingZeroNibbles (b : Word) : Nat → Nat
  | 0 => 0
  | n + 1 => if nibble b n == 0#4 then 1 + leadingZeroNibbles b n else 0

/-- The sign code test: `0xB` and `0xD` are negative, all fourteen others positive (R68). -/
def negativeCode (n4 : BitVec 4) : Bool := n4 == 0xB#4 || n4 == 0xD#4

/-- The exponent operand of a constructor lies outside 0 to 767, read as an `i32` (42_word_encode.md R142). -/
def exponentOutside (x : BitVec 32) : Bool := x.toInt < 0 || (Rom.bexpMax : Int) < x.toInt

end Sys2Proof.Machine
end

