-- ==== Sys2Proof/Machine/State.lean ====
section
/-! DEFINITION. The state: three constant tables, the strap, and the two ports (10_state.md R20 to R29). -/

namespace Sys2Proof.Machine

/-- The three ways an operation completes without a result (60_exceptions.md R200). -/
inductive Failure where
  /-- `st = 1`: the hardware path cannot serve this request. -/
  | unsupported
  /-- `st = 2`: an operand that should be BCD digits has a nibble above 9. -/
  | invalidEncoding
  /-- `st = 3`: the request itself is malformed. -/
  | illegal
  deriving DecidableEq, Repr

/-- One response (30_encoding.md R71): status `OK` with its result, or a failing status ALONE, since the result field of
a failing response has no defined value (60_exceptions.md R204). -/
inductive Response where
  /-- `st = 0`, `r` the result. -/
  | ok (r : Word)
  /-- `st` not 0, no result. -/
  | failed (f : Failure)
  deriving DecidableEq, Repr

/-- The block never stops: every request gets a response (00_scope.md R9; 93_implementation_defined.md, the last
sentence of part 1). So no reason to stop with a fault exists and the type has no constructor. -/
inductive Fault
  deriving DecidableEq, Repr

/-- Reasons for having no meaning. -/
inductive Refusal where
  /-- An instruction without a meaning in the model, by its mnemonic. No arm of `exec` answers it: all 22 operations have
  their meaning. Raising it would be safe (the model would stop where the block goes on). -/
  | notModelled (mnemonic : String)
  deriving DecidableEq, Repr

/-- Everything the spec gives the machine. -/
structure State where
  /-- `ROM_DPD` (10_state.md R24). -/
  romDpd : Vector (BitVec 16) 1024
  /-- `ROM_COMBO` (R25). -/
  romCombo : Vector (BitVec 8) 32
  /-- `ROM_POW10` (R26). -/
  romPow10 : Vector (BitVec 64) 19
  /-- The strap `hw_avail` (R27). -/
  hwAvail : Bool
  /-- The request port (R28): the requests the host has presented and the block has not evaluated, oldest first. A MODEL
  form of the wire, log entry 1 (DESIGN CHOICE). -/
  requests : List Request
  /-- The response port (R28): the response to the request evaluated by the last step, nothing when that step had no
  request. A MODEL form of the wire, log entry 2 (DESIGN CHOICE). -/
  response : Option Response
  deriving DecidableEq, Repr

/-- The state after reset (R29, 70_reset_and_hazards.md R220): the tables hold their values, the strap is what the
environment straps, no request has been presented and no response stands on the port. -/
def State.reset : State where
  romDpd := Rom.dpd
  romCombo := Rom.combo
  romPow10 := Rom.pow10
  hwAvail := Config.hwAvail
  requests := []
  response := none

end Sys2Proof.Machine
end

