-- ==== Sys2Proof/Machine/Ops.lean ====
section
/-! DEFINITION. The named operations over the tables and the ports: table reads (20_memory.md R40, R44), the shared
helpers of the decoder and the encoder (41_word_decode.md R120, 42_word_encode.md R140), completing an operation with or
without a result (60_exceptions.md R200, R204, R205), and what the host can do at the ports. -/

namespace Sys2Proof.Machine

/-! ### Table reads: one whole entry, no side effect (20_memory.md R44) -/

/-- `ROM_DPD[g]`. -/
def State.dpdEntry (s : State) (g : Group) : BitVec 16 := s.romDpd[g.toNat]'g.isLt

/-- `ROM_DPD[g][11:0]`, the three digits. -/
def State.dpdDigits (s : State) (g : Group) : Digits3 := (s.dpdEntry g).extractLsb' 0 12

/-- `ROM_COMBO[c]`. -/
def State.comboEntry (s : State) (c : BitVec 5) : BitVec 8 := s.romCombo[c.toNat]'c.isLt

/-- `ROM_POW10[i]`; nothing outside the 19 entries. -/
def State.pow10Entry? (s : State) (i : Nat) : Option Word := s.romPow10[i]?

/-! ### The inverse mappings, functions of the tables (20_memory.md R40) -/

/-- The least `g` with `ROM_DPD[g][11:0] = d` (40_tables.md R101). Where a table holds no such `g` (no table the block
can hold, for the digits a rule passes here) the value is group 0, log entry 7. -/
def State.bcd2dpd (s : State) (d : Digits3) : Group :=
  BitVec.ofNat 10 (s.romDpd.toList.findIdx fun x => x.extractLsb' 0 12 == d)

/-- The combination field of a leading digit and two exponent bits (40_tables.md R103). -/
def comboenc (digit : BitVec 4) (exphi : BitVec 2) : BitVec 5 :=
  if digit.toNat ≤ 7 then exphi ++ digit.extractLsb' 0 3 else 0b11#2 ++ exphi ++ digit.extractLsb' 0 1

/-! ### Decoding a word (41_word_decode.md R120) -/

/-- `lead(w) = ROM_COMBO[cf(w)][7:2]`. -/
def State.lead (s : State) (w : Word) : BitVec 6 := (s.comboEntry (cf w)).extractLsb' 2 6

/-- `exphi(w) = ROM_COMBO[cf(w)][1:0]`. -/
def State.exphi (s : State) (w : Word) : BitVec 2 := (s.comboEntry (cf w)).extractLsb' 0 2

/-- `bexp(w) = {exphi(w), ec(w)}` (30_encoding.md R64). -/
def State.bexp (s : State) (w : Word) : BitVec 10 := s.exphi w ++ ec w

/-- `digits(w)`: 0 for a word that tests zero, else the leading digit and the five groups' digits. -/
def State.digits (s : State) (w : Word) : Word :=
  if isZero w then 0#64
  else
    (s.lead w).extractLsb' 0 4 ++ s.dpdDigits (grp w 0) ++ s.dpdDigits (grp w 1) ++ s.dpdDigits (grp w 2)
      ++ s.dpdDigits (grp w 3) ++ s.dpdDigits (grp w 4)

/-! ### Building a word (42_word_encode.md R140) -/

/-- `encode_word(sg, x, b)`. -/
def State.encodeWord (s : State) (sg : BitVec 1) (x : BitVec 10) (b : Word) : Word :=
  sg ++ comboenc (b.extractLsb' 60 4) (x.extractLsb' 8 2) ++ x.extractLsb' 0 8
    ++ s.bcd2dpd (b.extractLsb' 48 12) ++ s.bcd2dpd (b.extractLsb' 36 12) ++ s.bcd2dpd (b.extractLsb' 24 12)
    ++ s.bcd2dpd (b.extractLsb' 12 12) ++ s.bcd2dpd (b.extractLsb' 0 12)

/-! ### Completing an operation -/

/-- `return v`: status `OK`, the result zero-extended to 64 bits (00_scope.md R8, 30_encoding.md R71). -/
def ret {n : Nat} (v : BitVec n) : Response := .ok (v.setWidth 64)

/-- `return sext_64(v)`: status `OK`, the two's-complement 64-bit result (`UEXP` and `SIGNUM`, 30_encoding.md R71). -/
def retInt (v : Int) : Response := .ok (BitVec.ofInt 64 v)

/-- `raise <Status>`: completion with that status and no result (00_scope.md R8). This is all that taking an exception
is on this block (60_exceptions.md R204). -/
def raise (f : Failure) : Response := .failed f

/-- An operation completes: its response is put on the response port, and nothing else changes, whether the status is
`OK` or not (60_exceptions.md R204, R205; 40_tables.md R105: no operation writes any state). There is no return from an
exception because nothing was left (R205). -/
def complete (r : Response) (s : State) : Host.Outcome State Fault Refusal := .next { s with response := some r }

/-! ### The ports (10_state.md R28) and what the host does at them -/

/-- The host presents one more request, after those already presented (R21). -/
def State.present (s : State) (q : Request) : State := { s with requests := s.requests ++ [q] }

/-- Take the oldest request presented off the request port. -/
def State.takeRequest (s : State) : Option (Request × State) :=
  match s.requests with
  | [] => none
  | q :: rest => some (q, { s with requests := rest })

/-- No request is presented: the block waits, and no response stands on the port (70_reset_and_hazards.md R220; log
entry 2). -/
def idle (s : State) : Host.Outcome State Fault Refusal := .next { s with response := none }

/-- The requests as `Step.withFetchWord` needs them: `q` is the next one evaluated. -/
def State.presentFirst (s : State) (q : Request) : State := { s with requests := q :: s.requests }

/-- A reset at any time: every table gets the value of 10_state.md R29, and it has no other effect
(70_reset_and_hazards.md R220). -/
def State.resetInput (s : State) : State :=
  { s with romDpd := Rom.dpd, romCombo := Rom.combo, romPow10 := Rom.pow10 }

end Sys2Proof.Machine
end

