-- ==== Sys2Proof/Machine/Ancillary.lean ====
section
/-! DEFINITION. The boundary operations `PDSIGN`, `RMMAP`, `NDIG` (43_ancillary.md R160 to R162). -/

namespace Sys2Proof.Machine

/-- `PDSIGN` (R160): is a packed-decimal sign code negative? -/
def execPdsign (n4 : BitVec 4) (s : State) : Host.Outcome State Fault Refusal :=
  complete (ret (BitVec.ofBool (negativeCode n4))) s

/-- The rounding-mode remap (R161): the numbers 0 and 6 are swapped, the rest pass through. -/
def rmmap (m : BitVec 3) : BitVec 3 :=
  if m == 0#3 then 6#3 else if m == 6#3 then 0#3 else m

/-- `RMMAP` (R161): between the classlib ordinal and the hardware code. -/
def execRmmap (m : BitVec 3) (s : State) : Host.Outcome State Fault Refusal :=
  complete (ret (rmmap m)) s

/-- The search of R162 from `k`, with `fuel` comparisons left: as long as `m` is at least `ROM_POW10[k]`, go on. -/
def digitSearch (s : State) (m : Nat) : (fuel : Nat) → (k : Nat) → Nat
  | 0, k => k
  | fuel + 1, k =>
    match s.pow10Entry? k with
    | none => k
    | some p => if p.toNat ≤ m then digitSearch s m fuel (k + 1) else k

/-- The number of decimal digits by the search: `k` from 1, at most up to 19 (R162). -/
def decimalDigits (s : State) (m : Nat) : Nat := digitSearch s m 18 1

/-- `NDIG` (R162): the digit count of a signed integer; the magnitude of -2^63 is 2^63. -/
def execNdig (n : Word) (s : State) : Host.Outcome State Fault Refusal :=
  complete (ret (BitVec.ofNat 5 (decimalDigits s n.toInt.natAbs))) s

end Sys2Proof.Machine
end

