-- ==== Sys2Proof/Machine/Tables.lean ====
section
/-! DEFINITION. The table operations `DPD2BCD`, `BCD2DPD`, `COMBO`, `COMBOENC`, `POW10` (40_tables.md R100 to R104). -/

namespace Sys2Proof.Machine

/-- `DPD2BCD` (R100): decode one group; every group decodes. -/
def execDpd2bcd (g : Group) (s : State) : Host.Outcome State Fault Refusal :=
  complete (ret (s.dpdEntry g)) s

/-- What `BCD2DPD` answers (R101). -/
def bcd2dpdResponse (s : State) (d : Digits3) : Response :=
  if !validDigits d 3 then raise .invalidEncoding else ret (s.bcd2dpd d)

/-- `BCD2DPD` (R101): encode three digits as the canonical group. -/
def execBcd2dpd (d : Digits3) (s : State) : Host.Outcome State Fault Refusal :=
  complete (bcd2dpdResponse s d) s

/-- What `COMBO` answers (R102): entries 30 and 31 are never read. -/
def comboResponse (s : State) (c : BitVec 5) : Response :=
  if 30 ≤ c.toNat then raise .unsupported else ret (s.comboEntry c)

/-- `COMBO` (R102): read one entry of the combination-field table. -/
def execCombo (c : BitVec 5) (s : State) : Host.Outcome State Fault Refusal :=
  complete (comboResponse s c) s

/-- What `COMBOENC` answers (R103): the exponent check comes first. -/
def comboencResponse (digit : BitVec 4) (exphi : BitVec 2) : Response :=
  if exphi == 3#2 then raise .unsupported
  else if 9 < digit.toNat then raise .invalidEncoding
  else ret (comboenc digit exphi)

/-- `COMBOENC` (R103): build the combination field. -/
def execComboenc (digit : BitVec 4) (exphi : BitVec 2) (s : State) : Host.Outcome State Fault Refusal :=
  complete (comboencResponse digit exphi) s

/-- What `POW10` answers (R104): `ILLEGAL` where the table has no such entry. -/
def pow10Response (s : State) (i : BitVec 5) : Response :=
  match s.pow10Entry? i.toNat with
  | none => raise .illegal
  | some v => ret v

/-- `POW10` (R104): read one entry of the powers-of-ten table. -/
def execPow10 (i : BitVec 5) (s : State) : Host.Outcome State Fault Refusal :=
  complete (pow10Response s i) s

end Sys2Proof.Machine
end

