-- ==== Sys2Proof/Machine/WordDecode.lean ====
section
/-! DEFINITION. The hardware-word decoder operations `ISZERO`, `WSIGN`, `BEXP`, `UEXP`, `XDIG`, `UVAL`, `SIGD`, `SIGNUM`
(41_word_decode.md R121 to R128). -/

namespace Sys2Proof.Machine

/-- `ISZERO` (R121): the zero test, for every word. -/
def execIszero (w : Word) (s : State) : Host.Outcome State Fault Refusal :=
  complete (ret (BitVec.ofBool (isZero w))) s

/-- `WSIGN` (R122): the raw sign bit, for every word. -/
def execWsign (w : Word) (s : State) : Host.Outcome State Fault Refusal :=
  complete (ret (sign w)) s

/-- What `BEXP` answers (R123). -/
def bexpResponse (s : State) (w : Word) : Response :=
  if special w then raise .unsupported else ret (s.bexp w)

/-- `BEXP` (R123): the biased exponent. -/
def execBexp (w : Word) (s : State) : Host.Outcome State Fault Refusal :=
  complete (bexpResponse s w) s

/-- What `UEXP` answers (R124). -/
def uexpResponse (s : State) (w : Word) : Response :=
  if special w then raise .unsupported else retInt ((s.bexp w).toNat - (Rom.bias : Int))

/-- `UEXP` (R124): the unbiased exponent. -/
def execUexp (w : Word) (s : State) : Host.Outcome State Fault Refusal :=
  complete (uexpResponse s w) s

/-- What `XDIG` answers (R125). -/
def xdigResponse (s : State) (w : Word) : Response :=
  if special w then raise .unsupported else ret (s.digits w)

/-- `XDIG` (R125): the full coefficient as a BCD digit stream. -/
def execXdig (w : Word) (s : State) : Host.Outcome State Fault Refusal :=
  complete (xdigResponse s w) s

/-- What `UVAL` answers (R126). -/
def uvalResponse (s : State) (w : Word) : Response :=
  if !s.hwAvail then raise .unsupported
  else if special w then raise .unsupported
  else ret (BitVec.ofNat 64 (bcdValue (s.digits w)))

/-- `UVAL` (R126): the coefficient as a binary integer, gated by `hw_avail`. -/
def execUval (w : Word) (s : State) : Host.Outcome State Fault Refusal :=
  complete (uvalResponse s w) s

/-- The number of significant digits of a stream: 16 less its leading zero nibbles, at least 1 (R127). -/
def significantDigits (b : Word) : Nat :=
  let n := 16 - leadingZeroNibbles b 16
  if n = 0 then 1 else n

/-- What `SIGD` answers (R127). -/
def sigdResponse (s : State) (w : Word) : Response :=
  if special w then raise .unsupported else ret (BitVec.ofNat 5 (significantDigits (s.digits w)))

/-- `SIGD` (R127): the number of significant digits. -/
def execSigd (w : Word) (s : State) : Host.Outcome State Fault Refusal :=
  complete (sigdResponse s w) s

/-- What `SIGNUM` answers (R128). -/
def signumResponse (s : State) (w : Word) : Response :=
  if special w then raise .unsupported
  else if sign w == 1#1 && !isZero w then retInt (-1)
  else if s.digits w == 0#64 then retInt 0
  else retInt 1

/-- `SIGNUM` (R128): the sign of the value. -/
def execSignum (w : Word) (s : State) : Host.Outcome State Fault Refusal :=
  complete (signumResponse s w) s

end Sys2Proof.Machine
end

