-- ==== Sys2Proof/Machine/WordEncode.lean ====
section
/-! DEFINITION. The hardware-word encoder operations `BIAS`, `ENCBCD`, `ENCLONG`, `ENCPD`, `W2PD`, `ZFIX`
(42_word_encode.md R141 to R146). -/

namespace Sys2Proof.Machine

/-- What `BIAS` answers (R141): the sum is formed without wrap-around. -/
def biasResponse (q : BitVec 32) : Response :=
  let x := q.toInt + Rom.bias
  if x < 0 || (Rom.bexpMax : Int) < x then raise .unsupported else ret (BitVec.ofInt 10 x)

/-- `BIAS` (R141): the biased-exponent encoder. -/
def execBias (q : BitVec 32) (s : State) : Host.Outcome State Fault Refusal :=
  complete (biasResponse q) s

/-- What `ENCBCD` answers (R142). -/
def encbcdResponse (s : State) (sg : BitVec 1) (x : BitVec 32) (b : Word) : Response :=
  if !s.hwAvail then raise .unsupported
  else if exponentOutside x then raise .unsupported
  else if !validDigits b 16 then raise .invalidEncoding
  else ret (s.encodeWord sg (x.extractLsb' 0 10) b)

/-- `ENCBCD` (R142): a word from a sign, a biased exponent and 16 BCD digits. -/
def execEncbcd (sg : BitVec 1) (x : BitVec 32) (b : Word) (s : State) : Host.Outcome State Fault Refusal :=
  complete (encbcdResponse s sg x b) s

/-- What `ENCLONG` answers (R143): the magnitude of -2^63 is 2^63, formed without overflow. -/
def enclongResponse (s : State) (x : BitVec 32) (n : Word) : Response :=
  if !s.hwAvail then raise .unsupported
  else if exponentOutside x then raise .unsupported
  else if 9999999999999999 < n.toInt.natAbs then raise .unsupported
  else ret (s.encodeWord (BitVec.ofBool (n.toInt < 0)) (x.extractLsb' 0 10) (bcdOf n.toInt.natAbs))

/-- `ENCLONG` (R143): a word from a signed binary integer and a biased exponent. -/
def execEnclong (x : BitVec 32) (n : Word) (s : State) : Host.Outcome State Fault Refusal :=
  complete (enclongResponse s x n) s

/-- What `ENCPD` answers (R144): the sign code never fails, the 16th digit is 0. -/
def encpdResponse (s : State) (x : BitVec 32) (p : Word) : Response :=
  if !s.hwAvail then raise .unsupported
  else if exponentOutside x then raise .unsupported
  else if !validDigits (p.extractLsb' 4 60) 15 then raise .invalidEncoding
  else
    ret (s.encodeWord (BitVec.ofBool (negativeCode (nibble p 0))) (x.extractLsb' 0 10)
      ((p.extractLsb' 4 60).setWidth 64))

/-- `ENCPD` (R144): a word from a signed packed 64-bit value and a biased exponent. -/
def execEncpd (x : BitVec 32) (p : Word) (s : State) : Host.Outcome State Fault Refusal :=
  complete (encpdResponse s x p) s

/-- What `W2PD` answers (R145): 15 digits and the sign code, a word that tests zero counted as non-negative. -/
def w2pdResponse (s : State) (w : Word) : Response :=
  let b := s.digits w
  if !s.hwAvail then raise .unsupported
  else if special w then raise .unsupported
  else if b.extractLsb' 60 4 != 0#4 then raise .unsupported
  else
    ret (b.extractLsb' 0 60 ++ (if sign w == 1#1 && !isZero w then 0xD#4 else 0xC#4))

/-- `W2PD` (R145): the hardware "convert to packed" primitive. -/
def execW2pd (w : Word) (s : State) : Host.Outcome State Fault Refusal :=
  complete (w2pdResponse s w) s

/-- The word with the sign of a zero cleared (R146): bit 63 of a word that tests zero, nothing else. -/
def zfix (w : Word) : Word := if isZero w then 0#1 ++ w.extractLsb' 0 63 else w

/-- `ZFIX` (R146): the sign-of-zero fixup, for every word. -/
def execZfix (w : Word) (s : State) : Host.Outcome State Fault Refusal :=
  complete (ret (zfix w)) s

end Sys2Proof.Machine
end

