-- ==== Sys2Proof/Machine/Dispatch.lean ====
section
/-! DEFINITION. One arm per operation of 30_encoding.md R72. -/

namespace Sys2Proof.Machine

def exec (i : Instr) (s : State) : Host.Outcome State Fault Refusal :=
  match i with
  | .dpd2bcd g => Sys2Proof.Machine.execDpd2bcd g s
  | .bcd2dpd d => Sys2Proof.Machine.execBcd2dpd d s
  | .combo c => Sys2Proof.Machine.execCombo c s
  | .comboenc digit exphi => Sys2Proof.Machine.execComboenc digit exphi s
  | .pow10 k => Sys2Proof.Machine.execPow10 k s
  | .iszero w => Sys2Proof.Machine.execIszero w s
  | .wsign w => Sys2Proof.Machine.execWsign w s
  | .bexp w => Sys2Proof.Machine.execBexp w s
  | .uexp w => Sys2Proof.Machine.execUexp w s
  | .xdig w => Sys2Proof.Machine.execXdig w s
  | .uval w => Sys2Proof.Machine.execUval w s
  | .sigd w => Sys2Proof.Machine.execSigd w s
  | .signum w => Sys2Proof.Machine.execSignum w s
  | .bias q => Sys2Proof.Machine.execBias q s
  | .encbcd sg x b => Sys2Proof.Machine.execEncbcd sg x b s
  | .enclong x n => Sys2Proof.Machine.execEnclong x n s
  | .encpd x p => Sys2Proof.Machine.execEncpd x p s
  | .w2pd w => Sys2Proof.Machine.execW2pd w s
  | .zfix w => Sys2Proof.Machine.execZfix w s
  | .pdsign n4 => Sys2Proof.Machine.execPdsign n4 s
  | .rmmap m => Sys2Proof.Machine.execRmmap m s
  | .ndig n => Sys2Proof.Machine.execNdig n s

end Sys2Proof.Machine
end

