-- ==== Sys2Proof/Machine/Step.lean ====
section
/-! DEFINITION. One step: one request evaluated to one response (00_scope.md R9). -/

namespace Sys2Proof.Machine

/-- Take the oldest request off the request port and evaluate it. A malformed request completes with `ILLEGAL` before
any operation sees it (60_exceptions.md R202 steps 1 and 2). With no request presented the block waits. -/
def step (s : State) : Host.Outcome State Fault Refusal :=
  match s.takeRequest with
  | none => idle s
  | some (q, t) =>
    match decode q with
    | .error _ => complete (raise .illegal) t
    | .ok i => exec i t

/-- `s` with the request of an opcode-table number presented as the next one to be evaluated. -/
def State.withFetchWord (s : State) (nbits w : Nat) : State :=
  match tableWord nbits w with
  | none => s
  | some q => s.presentFirst q

end Sys2Proof.Machine
end

