-- ==== Sys2Proof/Machine/Flags.lean ====
section
/-! DEFINITION. The block has no flags (10_state.md R23); what a response carries in their stead is its status. Here are
the status codes (60_exceptions.md R200), the 66-bit layout of a response (30_encoding.md R71), and the table of every
cause of a failing status with the order in which they are tested (60_exceptions.md R201, R202). -/

namespace Sys2Proof.Machine

/-! ### Status codes and the response port's layout -/

/-- The code of a failing status (R200). -/
def Failure.code : Failure → BitVec 2
  | .unsupported => 1
  | .invalidEncoding => 2
  | .illegal => 3

/-- The 2-bit status of a response (R200). -/
def Response.st : Response → BitVec 2
  | .ok _ => 0
  | .failed f => f.code

/-- The result of a response, when it has one (R204). -/
def Response.result? : Response → Option Word
  | .ok r => some r
  | .failed _ => none

/-- The 66 bits on the response port: `rsp[65:64] = st`, `rsp[63:0] = r` (30_encoding.md R71). The result field of a
failing response has no defined value, so it is the argument `undefinedR`, which nothing fixes (R204). -/
def Response.port (undefinedR : Word) : Response → BitVec 66
  | .ok r => (0 : BitVec 2) ++ r
  | .failed f => f.code ++ undefinedR

/-- What the host may read from the response port: the status, and the result only when the status is `OK`. -/
def Response.ofPort (rsp : BitVec 66) : Response :=
  match (rsp.extractLsb' 64 2).toNat with
  | 0 => .ok (rsp.extractLsb' 0 64)
  | 1 => .failed .unsupported
  | 2 => .failed .invalidEncoding
  | _ => .failed .illegal

/-- The operations that stand for hardware primitives: the five that `hw_avail` gates (10_state.md R27). -/
def gated : Instr → Bool
  | .uval _ => true
  | .encbcd _ _ _ => true
  | .enclong _ _ => true
  | .encpd _ _ => true
  | .w2pd _ => true
  | _ => false

/-! ### Causes and priority -/

/-- The causes of a failing status that concern the operands of an accepted request: the rows of R201 but for the first
two, which the decoder answers (`DecodeError`). -/
inductive Cause where
  /-- `POW10` index 19 to 31. -/
  | tableIndex
  /-- `hw_avail = 0` for a gated operation. -/
  | hardwareAbsent
  /-- The word is special. -/
  | specialWord
  /-- `COMBO` index 30 or 31. -/
  | comboIndex
  /-- Biased exponent outside 0 to 767. -/
  | exponentRange
  /-- A digit nibble above 9. -/
  | digitNibble
  /-- `ENCLONG`: more than 16 digits. -/
  | wideMagnitude
  /-- `W2PD`: the 16th digit is not zero. -/
  | sixteenthDigit
  deriving DecidableEq, Repr

/-- The status of a cause (R201). -/
def Cause.status : Cause → Failure
  | .tableIndex => .illegal
  | .hardwareAbsent => .unsupported
  | .specialWord => .unsupported
  | .comboIndex => .unsupported
  | .exponentRange => .unsupported
  | .digitNibble => .invalidEncoding
  | .wideMagnitude => .unsupported
  | .sixteenthDigit => .unsupported

/-- Does the cause apply to the operation in this state? One arm per row of R201; an operation a row does not list never
has that cause. -/
def Cause.appliesTo (s : State) : Cause → Instr → Bool
  | .tableIndex, .pow10 i => 19 ≤ i.toNat
  | .hardwareAbsent, .uval _ => !s.hwAvail
  | .hardwareAbsent, .encbcd _ _ _ => !s.hwAvail
  | .hardwareAbsent, .enclong _ _ => !s.hwAvail
  | .hardwareAbsent, .encpd _ _ => !s.hwAvail
  | .hardwareAbsent, .w2pd _ => !s.hwAvail
  | .specialWord, .bexp w => special w
  | .specialWord, .uexp w => special w
  | .specialWord, .xdig w => special w
  | .specialWord, .uval w => special w
  | .specialWord, .sigd w => special w
  | .specialWord, .signum w => special w
  | .specialWord, .w2pd w => special w
  | .comboIndex, .combo c => 30 ≤ c.toNat
  | .exponentRange, .bias q => q.toInt + 398 < 0 || 767 < q.toInt + 398
  | .exponentRange, .encbcd _ x _ => exponentOutside x
  | .exponentRange, .enclong x _ => exponentOutside x
  | .exponentRange, .encpd x _ => exponentOutside x
  | .exponentRange, .comboenc _ exphi => exphi == 3#2
  | .digitNibble, .bcd2dpd d => !validDigits d 3
  | .digitNibble, .comboenc digit _ => 9 < digit.toNat
  | .digitNibble, .encbcd _ _ b => !validDigits b 16
  | .digitNibble, .encpd _ p => !validDigits (p.extractLsb' 4 60) 15
  | .wideMagnitude, .enclong _ n => 9999999999999999 < n.toInt.natAbs
  | .sixteenthDigit, .w2pd w => (s.digits w).extractLsb' 60 4 != 0#4
  | _, _ => false

/-- The order in which the causes are tested: steps 2 to 7 of R202. -/
def Cause.inOrder : List Cause :=
  [.tableIndex, .hardwareAbsent, .specialWord, .comboIndex, .exponentRange, .digitNibble, .wideMagnitude,
   .sixteenthDigit]

/-- The failing status R202 gives an accepted request, nothing when no cause applies. -/
def priorityStatus (s : State) (i : Instr) : Option Failure :=
  (Cause.inOrder.find? fun c => c.appliesTo s i).map Cause.status

end Sys2Proof.Machine
end

