-- ==== Sys2Proof/Machine/Reference.lean ====
section
/-! DEFINITION. The second readings the spec prints beside the operations: the two algorithms (10_state.md R31,
40_tables.md R101), the meaning of the combination field (30_encoding.md R62), the canonical groups (10_state.md R30) and
the number a word stands for (R65). No operation calls them; statements compare the operations with them. -/

namespace Sys2Proof.Machine

/-- Bit `i` of a vector as a one-bit vector. -/
def bit {n : Nat} (v : BitVec n) (i : Nat) : BitVec 1 := v.extractLsb' i 1

/-- `ROM_DPD[g][11:0]` by the eight cases of 10_state.md R31, the bits of `g` named p q r s t u v w x y from bit 9
down. -/
def dpdByRule (g : Group) : Digits3 :=
  let p := bit g 9
  let q := bit g 8
  let r := bit g 7
  let s := bit g 6
  let t := bit g 5
  let u := bit g 4
  let y := bit g 0
  let small (a b c : BitVec 1) : BitVec 4 := 0#1 ++ a ++ b ++ c
  let large (a : BitVec 1) : BitVec 4 := 4#3 ++ a
  if bit g 3 = 0#1 then small p q r ++ small s t u ++ small (bit g 2) (bit g 1) y
  else if g.extractLsb' 1 2 = 0b00#2 then small p q r ++ small s t u ++ large y
  else if g.extractLsb' 1 2 = 0b01#2 then small p q r ++ large u ++ small s t y
  else if g.extractLsb' 1 2 = 0b10#2 then large r ++ small s t u ++ small p q y
  else if g.extractLsb' 5 2 = 0b00#2 then large r ++ large u ++ small p q y
  else if g.extractLsb' 5 2 = 0b01#2 then large r ++ small p q u ++ large y
  else if g.extractLsb' 5 2 = 0b10#2 then small p q r ++ large u ++ large y
  else large r ++ large u ++ large y

/-- The canonical group of three digits by the eight cases of 40_tables.md R101, chosen by the digits' top bits. -/
def dpdEncodeByRule (d : Digits3) : Group :=
  let a2 := bit d 10
  let a1 := bit d 9
  let a0 := bit d 8
  let b2 := bit d 6
  let b1 := bit d 5
  let b0 := bit d 4
  let c2 := bit d 2
  let c1 := bit d 1
  let c0 := bit d 0
  let top := bit d 11 ++ bit d 7 ++ bit d 3
  if top = 0b000#3 then a2 ++ a1 ++ a0 ++ b2 ++ b1 ++ b0 ++ 0#1 ++ c2 ++ c1 ++ c0
  else if top = 0b001#3 then a2 ++ a1 ++ a0 ++ b2 ++ b1 ++ b0 ++ 0b100#3 ++ c0
  else if top = 0b010#3 then a2 ++ a1 ++ a0 ++ c2 ++ c1 ++ b0 ++ 0b101#3 ++ c0
  else if top = 0b100#3 then c2 ++ c1 ++ a0 ++ b2 ++ b1 ++ b0 ++ 0b110#3 ++ c0
  else if top = 0b110#3 then c2 ++ c1 ++ a0 ++ 0b00#2 ++ b0 ++ 0b111#3 ++ c0
  else if top = 0b101#3 then b2 ++ b1 ++ a0 ++ 0b01#2 ++ b0 ++ 0b111#3 ++ c0
  else if top = 0b011#3 then a2 ++ a1 ++ a0 ++ 0b10#2 ++ b0 ++ 0b111#3 ++ c0
  else 0b00#2 ++ a0 ++ 0b11#2 ++ b0 ++ 0b111#3 ++ c0

/-- The 24 non-canonical groups (10_state.md R30 c): bits 6, 5, 3, 2, 1 all 1 and bits 9..8 not 0. -/
def nonCanonical (g : Group) : Bool :=
  g.extractLsb' 5 2 == 3#2 && g.extractLsb' 1 3 == 7#3 && g.extractLsb' 8 2 != 0#2

/-- A group with bits 9..8 cleared when it is not canonical, else unchanged (40_tables.md R101). -/
def canonicalize (g : Group) : Group := if nonCanonical g then 0#2 ++ g.extractLsb' 0 8 else g

/-- A word with every group made canonical, nothing else changed (42_word_encode.md R147 b). -/
def canonicalWord (w : Word) : Word :=
  w.extractLsb' 50 14 ++ canonicalize (grp w 0) ++ canonicalize (grp w 1) ++ canonicalize (grp w 2)
    ++ canonicalize (grp w 3) ++ canonicalize (grp w 4)

/-- The leading digit a combination field names (30_encoding.md R62). -/
def fieldLead (c : BitVec 5) : Nat :=
  if c.extractLsb' 3 2 = 3#2 then 8 + (c.extractLsb' 0 1).toNat else (c.extractLsb' 0 3).toNat

/-- The two high exponent bits a combination field names (30_encoding.md R62). -/
def fieldExphi (c : BitVec 5) : Nat :=
  if c.extractLsb' 3 2 = 3#2 then (c.extractLsb' 1 2).toNat else (c.extractLsb' 3 2).toNat

/-- The biased exponent by the format (30_encoding.md R64). -/
def formatBexp (w : Word) : Nat := fieldExphi (cf w) * 256 + (ec w).toNat

/-- The number three digits spell. -/
def digits3Value (d : Digits3) : Nat :=
  (nibble d 2).toNat * 100 + (nibble d 1).toNat * 10 + (nibble d 0).toNat

/-- `C(w)`, the 16-digit coefficient by the format (30_encoding.md R65). -/
def formatCoefficient (w : Word) : Nat :=
  fieldLead (cf w) * 10 ^ 15 + digits3Value (dpdByRule (grp w 0)) * 10 ^ 12
    + digits3Value (dpdByRule (grp w 1)) * 10 ^ 9 + digits3Value (dpdByRule (grp w 2)) * 10 ^ 6
    + digits3Value (dpdByRule (grp w 3)) * 10 ^ 3 + digits3Value (dpdByRule (grp w 4))

/-- A decimal number: an integer and the power of ten it is multiplied by (30_encoding.md R65; the scale of
00_scope.md R10 is the negated exponent). -/
structure Decimal where
  unscaled : Int
  exponent : Int
  deriving DecidableEq, Repr

/-- The number a non-special word stands for: `(-1)^sign * C(w) * 10^(bexp - 398)` (30_encoding.md R65). -/
def wordValue (w : Word) : Decimal where
  unscaled := if sign w = 1#1 then -(formatCoefficient w : Int) else formatCoefficient w
  exponent := formatBexp w - 398

/-- The 512 words the block reads as zero although their combination field names the digit 8 (41_word_decode.md R129 b,
30_encoding.md R78). -/
def readsAsZeroAnomaly (w : Word) : Bool := cf w == 24#5 && cc w == 0#50

/-- The eight rounding modes (30_encoding.md R69). -/
inductive RoundingMode where
  | up
  | down
  | ceiling
  | floor
  | halfUp
  | halfDown
  | halfEven
  | unnecessary
  deriving DecidableEq, Repr

/-- The classlib ordinal of a mode (R69). -/
def RoundingMode.ordinal : RoundingMode → BitVec 3
  | .up => 0
  | .down => 1
  | .ceiling => 2
  | .floor => 3
  | .halfUp => 4
  | .halfDown => 5
  | .halfEven => 6
  | .unnecessary => 7

/-- The hardware code of a mode (R69). -/
def RoundingMode.hardwareCode : RoundingMode → BitVec 3
  | .up => 6
  | .down => 1
  | .ceiling => 2
  | .floor => 3
  | .halfUp => 4
  | .halfDown => 5
  | .halfEven => 0
  | .unnecessary => 7

end Sys2Proof.Machine
end

