-- ==== Sys2Proof/Machine/HostCodec.lean ====
section
/-! DEFINITION. The host's packed-decimal reference functions (43_ancillary.md R163 to R168). They have no operation
code and run in the caller; they show how the caller uses `ENCPD` and `W2PD`. -/

namespace Sys2Proof.Machine

/-- A signed packed decimal byte sequence (30_encoding.md R67): at least one byte, the last one holding the last digit
and the sign code. -/
structure PackedBytes where
  init : List Byte
  last : Byte
  deriving DecidableEq, Repr

/-- The bytes in order. -/
def PackedBytes.toList (b : PackedBytes) : List Byte := b.init ++ [b.last]

/-- The high nibble, the earlier digit (20_memory.md R42). -/
def hiNibble (b : Byte) : BitVec 4 := nibble b 1

/-- The low nibble. -/
def loNibble (b : Byte) : BitVec 4 := nibble b 0

/-- The big-endian number of a byte string. -/
def packNat : List Byte → Nat
  | [] => 0
  | b :: bs => b.toNat * 256 ^ bs.length + packNat bs

/-- `pack_be` (R163): byte 0 the most significant, right-aligned in 64 bits. -/
def packBe (bytes : List Byte) : Word := BitVec.ofNat 64 (packNat bytes)

/-- `unpack_be` (R163): the 8 bytes of a value, the most significant first. -/
def unpackBe (p : Word) : List Byte := (List.range 8).map fun i => p.extractLsb' (56 - 8 * i) 8

/-! ### Decoding (R164, R165) -/

/-- The digit string: two digits per byte, then the last byte's high nibble (R165). -/
def PackedBytes.digitString (b : PackedBytes) : List (BitVec 4) :=
  b.init.flatMap (fun x => [hiNibble x, loNibble x]) ++ [hiNibble b.last]

/-- The number a digit string spells, most significant digit first (R165). -/
def stringValue (t : List (BitVec 4)) : Nat := t.foldl (fun n d => 10 * n + d.toNat) 0

/-- What decoding packed bytes yields. -/
inductive Decoded where
  /-- A hardware-represented value: the word. -/
  | word (w : Word)
  /-- A software-represented value. -/
  | number (v : Decimal)
  /-- The caller-visible error `InvalidEncoding`. -/
  | formatError
  deriving DecidableEq, Repr

/-- The slow path (R165). -/
def decodeSlow (b : PackedBytes) (scale : Int) : Decoded :=
  let t := b.digitString
  if t.any (fun d => 9 < d.toNat) then .formatError
  else
    let m : Int := stringValue t
    .number ⟨if negativeCode (loNibble b.last) then -m else m, -scale⟩

/-- The host evaluates one operation on the block: the response it reads. -/
def evaluate (s : State) (i : Instr) : Option Response :=
  match exec i s with
  | .next t => t.response
  | .fault _ => none
  | .refused _ => none

/-- The caller's admission test for the fast path (R164): at most 8 bytes, hardware available, and the target biased
exponent in the half-open window `[0, 767)` (90_conflicts.md C2). -/
def fastAdmissible (s : State) (b : PackedBytes) (scale : Int) : Bool :=
  b.toList.length ≤ 8 && s.hwAvail && 0 ≤ 398 - scale && 398 - scale ≤ 766

/-- The fast path (R164); `none` where the host takes the slow path. -/
def decodeFast (s : State) (b : PackedBytes) (scale : Int) : Option Decoded :=
  if fastAdmissible s b scale then
    match evaluate s (.encpd (BitVec.ofInt 32 (398 - scale)) (packBe b.toList)) with
    | some (.ok w) => some (.word w)
    | some (.failed .invalidEncoding) => some .formatError
    | _ => none
  else none

/-- `decodePackedDecimal(bytes, scale)`: the fast path, else the slow path (R164, R165). R164 says that the host MAY take
the fast path where it is admissible, so the caller's preference is an argument (log entry 18, DESIGN CHOICE). -/
def decodePackedDecimal (s : State) (preferHardware : Bool) (b : PackedBytes) (scale : Int) : Decoded :=
  if preferHardware then (decodeFast s b scale).getD (decodeSlow b scale) else decodeSlow b scale

/-! ### Encoding (R166, R167) -/

/-- The decimal digits of a number, the least significant first; `fuel` bounds their count. -/
def digitsUp : (fuel : Nat) → Nat → List (BitVec 4)
  | 0, _ => []
  | fuel + 1, m => BitVec.ofNat 4 (m % 10) :: if m / 10 = 0 then [] else digitsUp fuel (m / 10)

/-- The decimal digit string of a magnitude without leading zeros, one digit for zero (R167). -/
def decimalString (m : Nat) : List (BitVec 4) := (digitsUp (m + 1) m).reverse

/-- Two nibbles a byte, the earlier one high. -/
def pairUp : List (BitVec 4) → List Byte
  | a :: b :: rest => (a ++ b) :: pairUp rest
  | _ => []

/-- The slow path (R167), right-justified (90_conflicts.md C7). -/
def encodeSlow (n : Int) : List Byte :=
  let u := decimalString n.natAbs
  let len := (u.length + 2) / 2
  pairUp (List.replicate (2 * len - 1 - u.length) 0#4 ++ u ++ [if n < 0 then 0xD#4 else 0xC#4])

/-- The fast path on a hardware-represented value (R166): always 8 bytes; `none` where the host takes the slow path. -/
def encodeFast (s : State) (w : Word) : Option (List Byte) :=
  match evaluate s (.w2pd w) with
  | some (.ok r) => some (unpackBe r)
  | _ => none

/-- The unscaled integer of a word as the host can read it from the block: the digits of `XDIG` with the sign of
`SIGNUM`; `none` for a special word, whose value the spec does not give (30_encoding.md R63). -/
def wordUnscaled (s : State) (w : Word) : Option Int :=
  match evaluate s (.xdig w), evaluate s (.signum w) with
  | some (.ok d), some (.ok g) => some (if g.toInt < 0 then -(bcdValue d : Int) else bcdValue d)
  | _, _ => none

/-- The slow path on a hardware-represented value: the digits the block reports, written as R167 says; log entry 9 for a
special word. -/
def encodeWordSlow (s : State) (w : Word) : Option (List Byte) := (wordUnscaled s w).map encodeSlow

/-- `encodePackedDecimal(value)` (R166, R167): the fast path on a word, else the slow path; the caller's preference as in
`decodePackedDecimal` (log entry 18, DESIGN CHOICE). -/
def encodePackedDecimal (s : State) (preferHardware : Bool) : Decoded → Option (List Byte)
  | .word w => if preferHardware then (encodeFast s w).orElse fun _ => encodeWordSlow s w else encodeWordSlow s w
  | .number v => some (encodeSlow v.unscaled)
  | .formatError => none

end Sys2Proof.Machine
end

