-- ==== Sys2Proof/Machine/Written.lean ====
section
/-! DEFINITION. The written form of requests (30_encoding.md R77): lines over the host's variables, evaluated by the block
one request after another. The variables are the host's; the block keeps nothing of them. -/

namespace Sys2Proof.Machine

/-- The mnemonics of the operation map with their codes (R72). -/
def mnemonicCodes : List (String × BitVec 5) :=
  [("DPD2BCD", 0x00), ("BCD2DPD", 0x01), ("COMBO", 0x02), ("COMBOENC", 0x03), ("POW10", 0x04), ("ISZERO", 0x08),
   ("WSIGN", 0x09), ("BEXP", 0x0A), ("UEXP", 0x0B), ("XDIG", 0x0C), ("UVAL", 0x0D), ("SIGD", 0x0E), ("SIGNUM", 0x0F),
   ("BIAS", 0x10), ("ENCBCD", 0x11), ("ENCLONG", 0x12), ("ENCPD", 0x13), ("W2PD", 0x14), ("ZFIX", 0x15),
   ("PDSIGN", 0x18), ("RMMAP", 0x19), ("NDIG", 0x1A)]

/-- The code of a mnemonic. -/
def codeOf (mnemonic : String) : Option (BitVec 5) := mnemonicCodes.lookup mnemonic

/-- `<a>`: a literal, or an earlier `<dest>`; the host's variables are numbered. -/
inductive WrittenOperand where
  | literal (v : Word)
  | dest (k : Nat)
  deriving DecidableEq, Repr

/-- `<dest> = <MNEMONIC> <a> [, e=<e>] [, s=<s>]`. -/
structure WrittenLine where
  dest : Nat
  mnemonic : String
  a : WrittenOperand
  e : Option (BitVec 32)
  s : Option (BitVec 1)
  deriving DecidableEq, Repr

/-- The host's variables, the latest definition first. -/
abbrev HostVars := List (Nat × Word)

/-- The value of `<a>`; nothing for a name that is not defined. -/
def WrittenOperand.value (vars : HostVars) : WrittenOperand → Option Word
  | .literal v => some v
  | .dest k => vars.lookup k

/-- The request of a line: `e=` and `s=` are given exactly when the operation reads them, an omitted field is 0;
nothing when the line is not of the written form. -/
def WrittenLine.request (vars : HostVars) (l : WrittenLine) : Option Request :=
  match codeOf l.mnemonic, l.a.value vars with
  | some op, some a =>
    if l.e.isSome = readsE op ∧ l.s.isSome = readsS op then some (mkRequest op (l.s.getD 0) (l.e.getD 0) a) else none
  | _, _ => none

/-- The block evaluates one line: the host presents its request, the block steps, and `<dest>` is defined when the status
is `OK`. Nothing for a line that is not of the written form. -/
def evaluateLine (s : State) (vars : HostVars) (l : WrittenLine) : Option (State × HostVars) :=
  match l.request vars with
  | none => none
  | some q =>
    match step (s.presentFirst q) with
    | .next t =>
      match t.response with
      | some (.ok r) => some (t, (l.dest, r) :: vars)
      | _ => some (t, vars)
    | .fault _ => none
    | .refused _ => none

/-- The block evaluates a list of lines in order. -/
def evaluateLines (s : State) (vars : HostVars) : List WrittenLine → Option (State × HostVars)
  | [] => some (s, vars)
  | l :: ls =>
    match evaluateLine s vars l with
    | none => none
    | some (t, vars') => evaluateLines t vars' ls

end Sys2Proof.Machine
end

