-- ==== Sys2Proof/Safety.lean ====
section
/-! DEFINITION. What counts as a safe run: the tables hold their values (10_state.md R29, 70_reset_and_hazards.md R221 a)
and the block answers every request (00_scope.md R9). -/

namespace Sys2Proof.Machine

/-- The three tables hold the values of 10_state.md R24 to R26. Entries 30 and 31 of `ROM_COMBO` are open, so nothing is
said of them (R25; 93_implementation_defined.md U1). -/
structure State.TablesLoaded (s : State) : Prop where
  dpd : s.romDpd = Rom.dpd
  combo : ∀ c : Fin 30, s.romCombo[c.val] = Rom.combo[c.val]
  pow10 : s.romPow10 = Rom.pow10

/-- The state with a response on the response port, all else unchanged. -/
def State.answered (s : State) (r : Response) : State := { s with response := some r }

/-- Every run from `s`, of any length, answers a next state: the block never stops. -/
def RunsForever (s : State) : Prop := ∀ n, ∃ t, Host.Core.run Sys2Proof.core n s = .next t

end Sys2Proof.Machine
end

