-- ==== Sys2Proof/Certificates/Slice0/Obligations.lean ====
section
/-! DEFINITION. The statements for the provers. Every one about an operation gives the whole next state, so its frame is in
it: `s.answered r` is `s` with `r` on the response port and every other field (the tables, the strap, the requests) as
before. Where a statement reads a table, its premise `s.TablesLoaded` is the invariant that
`Obligations.StepKeepsTheTablesLoaded` and `Obligations.TablesLoadedAtReset` state. -/

open Sys2Proof Sys2Proof.Machine

/-! ### Reset, invariants, steps -/

/-- R29, R25, R26, R31: what the tables and the strap hold after reset, each entry by the rule that describes it. -/
def Obligations.ResetTablesHoldTheirValues : Prop :=
  (∀ g : Group, State.reset.dpdEntry g = (dpdByRule g).setWidth 16)
    ∧ (∀ c : BitVec 5, c.toNat < 30 → (State.reset.comboEntry c).toNat = 4 * fieldLead c + fieldExphi c)
    ∧ (∀ i : Fin 19, (State.reset.romPow10[i.val]).toNat = 10 ^ i.val)
    ∧ State.reset.hwAvail = Config.hwAvail

/-- The invariant of the tables holds at reset (R29). -/
def Obligations.TablesLoadedAtReset : Prop := State.reset.TablesLoaded

/-- R29 "These never change afterwards", R27 the strap: every step keeps the tables and the strap, so it keeps the
invariant. -/
def Obligations.StepKeepsTheTablesLoaded : Prop :=
  ∀ s t : State, step s = .next t →
    (t.romDpd = s.romDpd ∧ t.romCombo = s.romCombo ∧ t.romPow10 = s.romPow10 ∧ t.hwAvail = s.hwAvail)
      ∧ (s.TablesLoaded → t.TablesLoaded)

/-- Model's choice of log entries 1 and 2: right after reset no request is presented, and the block waits in the reset
state until one is (R220: "nothing starts running at reset; the block waits for requests"). -/
def Obligations.ResetWaitsForRequests : Prop :=
  State.reset.requests = [] ∧ step State.reset = .next State.reset

/-- A step takes the oldest request off the port and runs the operation it decodes to on the state that is left (the
request queue is log entry 1). -/
def Obligations.StepRunsTheDecodedOperation : Prop :=
  ∀ (s : State) (q : Request) (rest : List Request) (i : Instr), s.requests = q :: rest → decode q = .ok i →
    step s = exec i { s with requests := rest }

/-- Every one of the 2^102 requests gets a response, and the step changes the two ports only. -/
def Obligations.EveryRequestIsAnswered : Prop :=
  ∀ (s : State) (q : Request) (rest : List Request), s.requests = q :: rest →
    ∃ r, step s = .next (State.answered { s with requests := rest } r)

/-- "No behaviour of the block is `stuck`: every request gets a response" (93_implementation_defined.md part 1): from
every state every run goes on. -/
def Obligations.TheBlockNeverStops : Prop := ∀ s : State, RunsForever s

/-! ### Decoding and encoding requests -/

/-- Decoding the request of an instruction gives the instruction back, with every operand. -/
def Obligations.DecodeOfEncodeIsTheInstruction : Prop := ∀ i : Instr, decode (encode i) = .ok i

/-- Every accepted request is the request of the instruction it decodes to: each request has one meaning and no bit of it
is ignored. -/
def Obligations.EncodeOfDecodeIsTheRequest : Prop :=
  ∀ (q : Request) (i : Instr), decode q = .ok i → encode i = q

/-- R74: the decoder reports a reserved code for exactly the ten codes, whatever the other fields hold, and such a request
completes with `ILLEGAL`. -/
def Obligations.ReservedCodesAreTheTen : Prop :=
  ∀ (s : State) (q : Request) (rest : List Request), s.requests = q :: rest →
    (decode q = .error (.reservedOp (opField q)) ↔
        opField q ∈ [0x05#5, 0x06#5, 0x07#5, 0x16#5, 0x17#5, 0x1B#5, 0x1C#5, 0x1D#5, 0x1E#5, 0x1F#5])
      ∧ (decode q = .error (.reservedOp (opField q)) →
          step s = .next (State.answered { s with requests := rest } (.failed .illegal)))

/-- R202 steps 1 and 2 (with R73, R74): a reserved code, a 1 in an operand bit that the operation does not read, or a
`POW10` index above 18 completes with `ILLEGAL`. -/
def Obligations.MalformedRequestsAnswerIllegal : Prop :=
  ∀ (s : State) (q : Request) (rest : List Request), s.requests = q :: rest →
    (opField q ∈ [0x05#5, 0x06#5, 0x07#5, 0x16#5, 0x17#5, 0x1B#5, 0x1C#5, 0x1D#5, 0x1E#5, 0x1F#5]
      ∨ (∃ k, readsA (opField q) ≤ k ∧ (aField q).getLsbD k = true)
      ∨ (eField q ≠ 0 ∧ opField q ∉ [0x10#5, 0x11#5, 0x12#5, 0x13#5])
      ∨ (sField q ≠ 0 ∧ opField q ≠ 0x11#5)
      ∨ (opField q = 0x04#5 ∧ 19 ≤ (aField q).toNat)) →
    step s = .next (State.answered { s with requests := rest } (.failed .illegal))

/-- Requests written out from R70 and R72, at least one for each family of operations, decode to what they stand for. -/
def Obligations.WrittenOutRequestsDecode : Prop :=
  decode 0x000000000000000000000000A3 = .ok (.dpd2bcd 0x0A3)
    ∧ decode 0x06000000000000000000000026 = .ok (.comboenc 9 2)
    ∧ decode 0x1800000000A2300000000000A3 = .ok (.xdig 0xA2300000000000A3)
    ∧ decode 0x20FFFFFFFE0000000000000000 = .ok (.bias 0xFFFFFFFE)
    ∧ decode 0x230000018C0000000000000123 = .ok (.encbcd 1 396 0x123)
    ∧ decode 0x260000018C000000000000123D = .ok (.encpd 396 0x123D)
    ∧ decode 0x32000000000000000000000006 = .ok (.rmmap 6)
    ∧ decode 0x0B000000070000000000000123 = .error (.reservedOp 0x05)
    ∧ decode 0x13000000002238000000000000 = .error (.unusedBits 0x09)

/-! ### Statuses -/

/-- R201 and R202: the status of every request is that of the first cause that applies, in the order of R202, and `OK`
when none applies. -/
def Obligations.StatusIsThatOfTheFirstCause : Prop :=
  ∀ (s : State) (q : Request) (rest : List Request), s.requests = q :: rest →
    ∃ r, step s = .next (State.answered { s with requests := rest } r)
      ∧ match operation q with
        | none => r = .failed .illegal
        | some i =>
          if unreadClear q = false then r = .failed .illegal
          else
            match priorityStatus s i with
            | some f => r = .failed f
            | none => ∃ v, r = .ok v

/-- R63 and R120: what the operations answer for a special word. -/
def Obligations.SpecialWordsAreUnsupported : Prop :=
  ∀ (s : State) (w : Word), special w = true →
    (∀ i ∈ [Instr.bexp w, .uexp w, .xdig w, .uval w, .sigd w, .signum w, .w2pd w],
        exec i s = .next (s.answered (.failed .unsupported)))
      ∧ exec (.iszero w) s = .next (s.answered (.ok 0))
      ∧ exec (.wsign w) s = .next (s.answered (.ok ((sign w).setWidth 64)))
      ∧ exec (.zfix w) s = .next (s.answered (.ok w))

/-- R27: no operation writes the strap; with `hw_avail = 0` the five gated operations complete with `UNSUPPORTED`,
whatever their operands; every other operation answers the same for both values of the strap. -/
def Obligations.TheStrapGatesFiveOperations : Prop :=
  ∀ (s : State) (i : Instr),
    (∀ t, exec i s = .next t → t.hwAvail = s.hwAvail)
      ∧ (gated i = true → s.hwAvail = false → exec i s = .next (s.answered (.failed .unsupported)))
      ∧ (gated i = false → ∀ hw : Bool, ∃ r, exec i s = .next (s.answered r)
          ∧ exec i { s with hwAvail := hw } = .next (State.answered { s with hwAvail := hw } r))

/-- R71, R200: the response port carries the status in bits 65..64, the result in bits 63..0 when the status is `OK`;
whatever stands in the result field of a failing response, what the host reads is the response. -/
def Obligations.TheResponsePortCarriesTheResponse : Prop :=
  ∀ (r : Response) (u : Word),
    (r.port u).extractLsb' 64 2 = r.st ∧ Response.ofPort (r.port u) = r
      ∧ (∀ v, r = .ok v → r.st = 0 ∧ (r.port u).extractLsb' 0 64 = v)
      ∧ (r = .failed .unsupported → r.st = 1) ∧ (r = .failed .invalidEncoding → r.st = 2)
      ∧ (r = .failed .illegal → r.st = 3)

/-! ### Ordering, purity, reset at any time -/

/-- R46: (a) the response depends on the request, the tables and the strap only; (b) two requests commute: in either
order each gets its own response; (c) the same request gets the same response again. -/
def Obligations.ResponsesDependOnTheirRequestOnly : Prop :=
  (∀ (s t : State) (q : Request) (restS restT : List Request),
      s.requests = q :: restS → t.requests = q :: restT →
      s.romDpd = t.romDpd → s.romCombo = t.romCombo → s.romPow10 = t.romPow10 → s.hwAvail = t.hwAvail →
      ∃ r, step s = .next (State.answered { s with requests := restS } r)
        ∧ step t = .next (State.answered { t with requests := restT } r))
    ∧ (∀ (s : State) (q₁ q₂ : Request), ∃ r₁ r₂,
        step { s with requests := [q₁, q₂] } = .next (State.answered { s with requests := [q₂] } r₁)
          ∧ step (State.answered { s with requests := [q₂] } r₁) = .next (State.answered { s with requests := [] } r₂)
          ∧ step { s with requests := [q₂, q₁] } = .next (State.answered { s with requests := [q₁] } r₂)
          ∧ step (State.answered { s with requests := [q₁] } r₂) = .next (State.answered { s with requests := [] } r₁))
    ∧ (∀ (s : State) (q : Request), ∃ r,
        step { s with requests := [q, q] } = .next (State.answered { s with requests := [q] } r)
          ∧ step (State.answered { s with requests := [q] } r) = .next (State.answered { s with requests := [] } r))

/-- R205: after a failing request the block goes on exactly as if that request had never been presented. -/
def Obligations.AFailureLeavesNothingBehind : Prop :=
  ∀ (s t : State) (q : Request) (rest : List Request) (f : Failure), s.requests = q :: rest →
    step s = .next t → t.response = some (.failed f) → step t = step { s with requests := rest }

/-- Entries 30 and 31 of `ROM_COMBO` are open and no operation reads them: whatever they hold, every operation answers the
same (10_state.md section 2; 93_implementation_defined.md U1). -/
def Obligations.OpenComboEntriesAreNeverRead : Prop :=
  ∀ (s t : State) (i : Instr), t.romDpd = s.romDpd → t.romPow10 = s.romPow10 → t.hwAvail = s.hwAvail →
    (∀ c : BitVec 5, c.toNat < 30 → t.comboEntry c = s.comboEntry c) →
    ∃ r, exec i s = .next (s.answered r) ∧ exec i t = .next (t.answered r)

/-- A reset gives the tables their reset values, and at any later time it is unobservable: the response to every request is the
same before and after it (70_reset_and_hazards.md section 1). That a reset leaves the waiting requests and the last response on the ports, and that
the request is then answered, is the model's choice: log entry 15, DEDUCED. -/
def Obligations.ALaterResetIsUnobservable : Prop :=
  ∀ (s : State) (q : Request) (rest : List Request), s.TablesLoaded → s.requests = q :: rest →
    s.resetInput
        = ⟨State.reset.romDpd, State.reset.romCombo, State.reset.romPow10, s.hwAvail, s.requests, s.response⟩
      ∧ ∃ r, step s = .next (State.answered { s with requests := rest } r)
      ∧ step s.resetInput = .next (State.answered { s.resetInput with requests := rest } r)

/-! ### Table operations -/

/-- R100: `DPD2BCD` answers the three digits of the group (by the algorithm of R31), which are always valid digits and all
zero for group 0 alone. -/
def Obligations.Dpd2bcdAnswersTheDigits : Prop :=
  ∀ (s : State) (g : Group), s.TablesLoaded →
    exec (.dpd2bcd g) s = .next (s.answered (.ok ((dpdByRule g).setWidth 64)))
      ∧ validDigits (dpdByRule g) 3 = true ∧ (dpdByRule g = 0 ↔ g = 0)

/-- R101: for three valid digits `BCD2DPD` answers the least group that decodes to them, which is the group of the eight
printed cases; for a nibble above 9 it completes with `INVALID_ENCODING`. -/
def Obligations.Bcd2dpdAnswersTheLeastGroup : Prop :=
  ∀ (s : State) (d : Digits3), s.TablesLoaded →
    (validDigits d 3 = true →
        exec (.bcd2dpd d) s = .next (s.answered (.ok ((dpdEncodeByRule d).setWidth 64)))
          ∧ s.dpdDigits (dpdEncodeByRule d) = d
          ∧ ∀ g : Group, s.dpdDigits g = d → (dpdEncodeByRule d).toNat ≤ g.toNat)
      ∧ (validDigits d 3 = false → exec (.bcd2dpd d) s = .next (s.answered (.failed .invalidEncoding)))

/-- R101, the laws a model can test: decoding an encoded digit triple gives it back; encoding a decoded group gives the
group with bits 9..8 cleared when it is one of the 24 non-canonical groups, and the group itself for exactly the others. -/
def Obligations.DpdAndBcdRoundTrip : Prop :=
  ∀ s : State, s.TablesLoaded →
    (∀ d : Digits3, validDigits d 3 = true →
        ∃ g : Group, exec (.bcd2dpd d) s = .next (s.answered (.ok (g.setWidth 64)))
          ∧ exec (.dpd2bcd g) s = .next (s.answered (.ok (d.setWidth 64))))
      ∧ (∀ g : Group, ∃ d : Digits3, exec (.dpd2bcd g) s = .next (s.answered (.ok (d.setWidth 64)))
          ∧ exec (.bcd2dpd d) s = .next (s.answered (.ok ((canonicalize g).setWidth 64)))
          ∧ (canonicalize g = g ↔ nonCanonical g = false))

/-- R102: `COMBO` answers the entry, the leading digit times 4 plus the two exponent bits (R62), for 0 to 29, and
`UNSUPPORTED` for 30 and 31. -/
def Obligations.ComboAnswersDigitAndExponentBits : Prop :=
  ∀ (s : State) (c : BitVec 5), s.TablesLoaded →
    (c.toNat < 30 → exec (.combo c) s = .next (s.answered (.ok (BitVec.ofNat 64 (4 * fieldLead c + fieldExphi c)))))
      ∧ (30 ≤ c.toNat → exec (.combo c) s = .next (s.answered (.failed .unsupported)))

/-- R103: `COMBOENC` is the inverse of `COMBO` on 0 to 29, and the exponent check comes before the digit check. -/
def Obligations.ComboencInvertsCombo : Prop :=
  ∀ s : State, s.TablesLoaded →
    (∀ (digit : BitVec 4) (exphi : BitVec 2), exphi ≠ 3 → digit.toNat ≤ 9 →
        ∃ c : BitVec 5, c.toNat < 30 ∧ exec (.comboenc digit exphi) s = .next (s.answered (.ok (c.setWidth 64)))
          ∧ exec (.combo c) s = .next (s.answered (.ok ((digit ++ exphi).setWidth 64))))
      ∧ (∀ c : BitVec 5, c.toNat < 30 → ∃ (digit : BitVec 4) (exphi : BitVec 2),
          exec (.combo c) s = .next (s.answered (.ok ((digit ++ exphi).setWidth 64)))
            ∧ exec (.comboenc digit exphi) s = .next (s.answered (.ok (c.setWidth 64))))
      ∧ (∀ digit : BitVec 4, exec (.comboenc digit 3) s = .next (s.answered (.failed .unsupported)))
      ∧ (∀ (digit : BitVec 4) (exphi : BitVec 2), exphi ≠ 3 → 9 < digit.toNat →
          exec (.comboenc digit exphi) s = .next (s.answered (.failed .invalidEncoding)))

/-- R104: `POW10` answers 10^i for 0 to 18 and `ILLEGAL` for 19 to 31. -/
def Obligations.Pow10AnswersThePower : Prop :=
  ∀ (s : State) (i : BitVec 5), s.TablesLoaded →
    (i.toNat < 19 → exec (.pow10 i) s = .next (s.answered (.ok (BitVec.ofNat 64 (10 ^ i.toNat)))))
      ∧ (19 ≤ i.toNat → exec (.pow10 i) s = .next (s.answered (.failed .illegal)))

/-! ### Decoding words -/

/-- R121: `ISZERO` answers the bit test for every word. -/
def Obligations.IszeroIsTheBitTest : Prop :=
  ∀ (s : State) (w : Word),
    exec (.iszero w) s
      = .next (s.answered (.ok (if w = 0x2238000000000000 ∨ (w.extractLsb' 0 50 = 0 ∧ w.extractLsb' 58 3 = 0) then 1 else 0)))

/-- R122: `WSIGN` answers bit 63 for every word. -/
def Obligations.WsignIsTheSignBit : Prop :=
  ∀ (s : State) (w : Word), exec (.wsign w) s = .next (s.answered (.ok (if w.getLsbD 63 then 1 else 0)))

/-- The choice of `ZERO_CONST` cannot be observed: any zero word in its place gives the same test, and the test is the
second disjunct alone (the derivation printed in 41_word_decode.md, `ISZERO`). -/
def Obligations.ZeroConstIsUnobservable : Prop :=
  ∀ zc w : Word, cc zc = 0 → zsub zc = 0 →
    isZeroWith zc w = isZero w ∧ (isZero w = true ↔ cc w = 0 ∧ zsub w = 0)

/-- R123 and R124: for a non-special word `BEXP` answers the biased exponent of the format, 0 to 767, and `UEXP` that less
398, sign-extended; a special word is `UNSUPPORTED`. -/
def Obligations.BexpAndUexpAnswerTheExponent : Prop :=
  ∀ (s : State) (w : Word), s.TablesLoaded →
    (special w = false →
        exec (.bexp w) s = .next (s.answered (.ok (BitVec.ofNat 64 (formatBexp w))))
          ∧ exec (.uexp w) s = .next (s.answered (.ok (BitVec.ofInt 64 ((formatBexp w : Int) - 398))))
          ∧ formatBexp w ≤ 767)
      ∧ (special w = true →
          exec (.bexp w) s = .next (s.answered (.failed .unsupported))
            ∧ exec (.uexp w) s = .next (s.answered (.failed .unsupported)))

/-- R125: for a non-special word `XDIG` answers 0 if the word tests zero, else the leading digit and the three digits of
each group; a special word is `UNSUPPORTED`. -/
def Obligations.XdigAnswersTheDigits : Prop :=
  ∀ (s : State) (w : Word), s.TablesLoaded →
    (special w = true → exec (.xdig w) s = .next (s.answered (.failed .unsupported)))
      ∧ (special w = false → isZero w = true → exec (.xdig w) s = .next (s.answered (.ok 0)))
      ∧ (special w = false → isZero w = false →
          exec (.xdig w) s = .next (s.answered (.ok
            (BitVec.ofNat 4 (fieldLead (cf w)) ++ dpdByRule (grp w 0) ++ dpdByRule (grp w 1) ++ dpdByRule (grp w 2)
              ++ dpdByRule (grp w 3) ++ dpdByRule (grp w 4)))))

/-- The digits of a non-special word are always a valid stream, all zero exactly for the words that test zero (the spec's
own derivation, 41_word_decode.md law (a) and the corner cases of `XDIG`). -/
def Obligations.DecodedDigitsAreValidAndZeroOnlyForZero : Prop :=
  ∀ (s : State) (w : Word), s.TablesLoaded → special w = false →
    validDigits (s.digits w) 16 = true ∧ (s.digits w = 0 ↔ isZero w = true)

/-- The block's coefficient is the format's for every non-special word but the 512 with `cf = 24` and `cc = 0`, which it
reads as zero (the spec's own derivation, 41_word_decode.md law (b)). -/
def Obligations.CoefficientIsTheFormatsButForTheAnomaly : Prop :=
  ∀ (s : State) (w : Word), s.TablesLoaded → special w = false →
    (readsAsZeroAnomaly w = false → bcdValue (s.digits w) = formatCoefficient w)
      ∧ (readsAsZeroAnomaly w = true → bcdValue (s.digits w) = 0 ∧ formatCoefficient w = 8000000000000000)

/-- With hardware available `UVAL` of a non-special word answers the value of the stream `XDIG` answers, the spec's own
derivation in 41_word_decode.md, `UVAL`: "`UVAL(w) = bcd_value(XDIG(w))` whenever both are `OK` [derived: from rule
R125]"; that value is at most 9999999999999999. Without hardware, and for a special word, it is `UNSUPPORTED`. -/
def Obligations.UvalAnswersTheBinaryCoefficient : Prop :=
  ∀ (s : State) (w : Word), s.TablesLoaded →
    (s.hwAvail = true → special w = false →
        ∃ d : Word, exec (.xdig w) s = .next (s.answered (.ok d))
          ∧ exec (.uval w) s = .next (s.answered (.ok (BitVec.ofNat 64 (bcdValue d))))
          ∧ bcdValue d ≤ 9999999999999999)
      ∧ (s.hwAvail = false ∨ special w = true → exec (.uval w) s = .next (s.answered (.failed .unsupported)))

/-- R127: `SIGD` of a non-special word answers the place of the highest digit that is not zero, and 1 for zero; a special
word is `UNSUPPORTED`. -/
def Obligations.SigdCountsTheSignificantDigits : Prop :=
  ∀ (s : State) (w : Word),
    (special w = false →
        ∃ n : Nat, exec (.sigd w) s = .next (s.answered (.ok (BitVec.ofNat 64 n))) ∧ 1 ≤ n ∧ n ≤ 16
          ∧ (∀ k, n ≤ k → k < 16 → nibble (s.digits w) k = 0)
          ∧ (s.digits w ≠ 0 → nibble (s.digits w) (n - 1) ≠ 0) ∧ (s.digits w = 0 → n = 1))
      ∧ (special w = true → exec (.sigd w) s = .next (s.answered (.failed .unsupported)))

/-- R128: `SIGNUM` of a non-special word answers 0 for the words that test zero, whatever their sign bit, -1 for the others
with bit 63 set and 1 for the rest; a special word is `UNSUPPORTED`. -/
def Obligations.SignumNeverLeaksANegativeZero : Prop :=
  ∀ (s : State) (w : Word), s.TablesLoaded →
    (special w = true → exec (.signum w) s = .next (s.answered (.failed .unsupported)))
      ∧ (special w = false →
          (isZero w = true → exec (.signum w) s = .next (s.answered (.ok 0)))
            ∧ (isZero w = false → sign w = 1 → exec (.signum w) s = .next (s.answered (.ok 0xFFFFFFFFFFFFFFFF)))
            ∧ (isZero w = false → sign w = 0 → exec (.signum w) s = .next (s.answered (.ok 1))))

/-- The number a non-special word stands for is what the block reports of it, digits, sign and exponent, but for the
words of the anomaly (the spec's own derivation, 30_encoding.md section 1). -/
def Obligations.TheBlockReportsTheNumberOfAWord : Prop :=
  ∀ (s : State) (w : Word), s.TablesLoaded → special w = false → readsAsZeroAnomaly w = false →
    wordUnscaled s w = some (wordValue w).unscaled
      ∧ exec (.uexp w) s = .next (s.answered (.ok (BitVec.ofInt 64 (wordValue w).exponent)))

/-! ### Building words -/

/-- R141: `BIAS` answers the sum with 398 when it lies in 0 to 767, else `UNSUPPORTED`; the sum never wraps; and `BIAS`
undoes `UEXP`. -/
def Obligations.BiasAddsWithoutWrappingAndUndoesUexp : Prop :=
  (∀ (s : State) (q : BitVec 32),
    (0 ≤ q.toInt + 398 → q.toInt + 398 ≤ 767 →
        exec (.bias q) s = .next (s.answered (.ok (BitVec.ofInt 64 (q.toInt + 398)))))
      ∧ (q.toInt + 398 < 0 ∨ 767 < q.toInt + 398 → exec (.bias q) s = .next (s.answered (.failed .unsupported))))
    ∧ ∀ (s : State) (w : Word), s.TablesLoaded → special w = false →
        ∃ u x : Word, exec (.uexp w) s = .next (s.answered (.ok u))
          ∧ exec (.bias (u.extractLsb' 0 32)) s = .next (s.answered (.ok x))
          ∧ exec (.bexp w) s = .next (s.answered (.ok x))

/-- R142: `ENCBCD` tests the hardware, then the exponent, then the digits, and answers `encode_word` of its operands. -/
def Obligations.EncbcdChecksInOrder : Prop :=
  ∀ (s : State) (sg : BitVec 1) (x : BitVec 32) (b : Word),
    (s.hwAvail = false ∨ x.toInt < 0 ∨ 767 < x.toInt →
        exec (.encbcd sg x b) s = .next (s.answered (.failed .unsupported)))
      ∧ (s.hwAvail = true → 0 ≤ x.toInt → x.toInt ≤ 767 →
          (validDigits b 16 = false → exec (.encbcd sg x b) s = .next (s.answered (.failed .invalidEncoding)))
            ∧ (validDigits b 16 = true →
                exec (.encbcd sg x b) s = .next (s.answered (.ok (s.encodeWord sg (x.extractLsb' 0 10) b)))))

/-- `ENCBCD` of a legal exponent and a valid stream, hardware available, builds the word with that sign, that biased
exponent, the leading digit in the combination field and the canonical group of each three digits; it is never a special
word (42_word_encode.md, `encode_word` and `ENCBCD`; the builder is the spec's own derivation). -/
def Obligations.EncbcdBuildsTheWord : Prop :=
  ∀ (s : State) (sg : BitVec 1) (x : BitVec 32) (b : Word), s.TablesLoaded → s.hwAvail = true →
    0 ≤ x.toInt → x.toInt ≤ 767 → validDigits b 16 = true →
    ∃ w : Word, exec (.encbcd sg x b) s = .next (s.answered (.ok w))
      ∧ sign w = sg ∧ (formatBexp w : Int) = x.toInt ∧ fieldLead (cf w) = (nibble b 15).toNat ∧ special w = false
      ∧ ∀ k < 5, grp w k = dpdEncodeByRule (b.extractLsb' (48 - 12 * k) 12)

/-- `ENCLONG` of a magnitude of at most 16 digits answers what `ENCBCD` answers for the sign and the digits of that
magnitude (the spec's own derivation, 42_word_encode.md law (d), first half); absent hardware, an exponent outside 0 to 767
and a longer magnitude are `UNSUPPORTED` (42_word_encode.md, `ENCLONG`). -/
def Obligations.EnclongEncodesTheMagnitude : Prop :=
  ∀ (s : State) (x : BitVec 32) (n : Word),
    (s.hwAvail = true → 0 ≤ x.toInt → x.toInt ≤ 767 → n.toInt.natAbs ≤ 9999999999999999 →
        ∃ b w : Word, bcdValue b = n.toInt.natAbs ∧ validDigits b 16 = true
          ∧ exec (.enclong x n) s = .next (s.answered (.ok w))
          ∧ exec (.encbcd (if n.toInt < 0 then 1 else 0) x b) s = .next (s.answered (.ok w)))
      ∧ (s.hwAvail = false ∨ x.toInt < 0 ∨ 767 < x.toInt ∨ 9999999999999999 < n.toInt.natAbs →
          exec (.enclong x n) s = .next (s.answered (.failed .unsupported)))

/-- R144: `ENCPD` of 15 valid digits answers what `ENCBCD` answers for those digits and the sign of the sign code, which
never fails; absent hardware and an exponent outside 0 to 767 are `UNSUPPORTED`, before a bad digit is
`INVALID_ENCODING`. -/
def Obligations.EncpdEncodesTheSignedDigits : Prop :=
  ∀ (s : State) (x : BitVec 32) (p : Word),
    (s.hwAvail = true → 0 ≤ x.toInt → x.toInt ≤ 767 →
        (validDigits (p.extractLsb' 4 60) 15 = true →
            ∃ w : Word, exec (.encpd x p) s = .next (s.answered (.ok w))
              ∧ exec (.encbcd (if nibble p 0 = 0xB ∨ nibble p 0 = 0xD then 1 else 0) x (p >>> 4)) s
                  = .next (s.answered (.ok w)))
          ∧ (validDigits (p.extractLsb' 4 60) 15 = false →
              exec (.encpd x p) s = .next (s.answered (.failed .invalidEncoding))))
      ∧ (s.hwAvail = false ∨ x.toInt < 0 ∨ 767 < x.toInt →
          exec (.encpd x p) s = .next (s.answered (.failed .unsupported)))

/-- R145: with hardware available `W2PD` of a non-special word answers its 15 low digits and the sign code, a word that
tests zero giving `0xC` and no digits, when the 16th digit is 0, and `UNSUPPORTED` when it is not; without hardware, and
for a special word, it is `UNSUPPORTED`. -/
def Obligations.W2pdPacksFifteenDigits : Prop :=
  ∀ (s : State) (w : Word), s.TablesLoaded →
    (s.hwAvail = true → special w = false → isZero w = true → exec (.w2pd w) s = .next (s.answered (.ok 0xC)))
      ∧ (s.hwAvail = true → special w = false → isZero w = false → fieldLead (cf w) = 0 →
          exec (.w2pd w) s = .next (s.answered (.ok
            (dpdByRule (grp w 0) ++ dpdByRule (grp w 1) ++ dpdByRule (grp w 2) ++ dpdByRule (grp w 3)
              ++ dpdByRule (grp w 4) ++ (if sign w = 1 then 0xD#4 else 0xC#4)))))
      ∧ (isZero w = false → fieldLead (cf w) ≠ 0 → exec (.w2pd w) s = .next (s.answered (.failed .unsupported)))
      ∧ (s.hwAvail = false ∨ special w = true → exec (.w2pd w) s = .next (s.answered (.failed .unsupported)))

/-- R146: `ZFIX` clears bit 63 of a word that tests zero and keeps everything else; every other word is returned
unchanged; doing it twice changes nothing more, and the sign of a fixed zero is 0. -/
def Obligations.ZfixClearsTheSignOfAZero : Prop :=
  ∀ (s : State) (w : Word), ∃ v : Word, exec (.zfix w) s = .next (s.answered (.ok v))
    ∧ (isZero w = true → v = 0#1 ++ w.extractLsb' 0 63 ∧ exec (.wsign v) s = .next (s.answered (.ok 0)))
    ∧ (isZero w = false → v = w) ∧ exec (.zfix v) s = .next (s.answered (.ok v))

/-- No constructor produces a special word or a non-canonical group (30_encoding.md, special words and redundant
encodings; 42_word_encode.md `encode_word`). -/
def Obligations.ConstructorsBuildCanonicalWords : Prop :=
  ∀ (s t : State) (sg : BitVec 1) (x : BitVec 32) (a w : Word), s.TablesLoaded →
    (∃ i ∈ [Instr.encbcd sg x a, .enclong x a, .encpd x a], exec i s = .next t) → t.response = some (.ok w) →
    special w = false ∧ canonicalWord w = w

/-- Encode then decode (the spec's own derivation, 42_word_encode.md law (a)). -/
def Obligations.EncodeThenDecodeGivesTheParts : Prop :=
  ∀ (s : State) (sg : BitVec 1) (x : BitVec 32) (b : Word), s.TablesLoaded → s.hwAvail = true →
    0 ≤ x.toInt → x.toInt ≤ 767 → validDigits b 16 = true →
    ∃ w : Word, exec (.encbcd sg x b) s = .next (s.answered (.ok w))
      ∧ exec (.wsign w) s = .next (s.answered (.ok (sg.setWidth 64)))
      ∧ exec (.bexp w) s = .next (s.answered (.ok (BitVec.ofInt 64 x.toInt)))
      ∧ exec (.xdig w) s
          = .next (s.answered (.ok (if b = 0x8000000000000000 ∧ x.toInt < 256 then 0 else b)))

/-- Decode then encode (the spec's own derivation, 42_word_encode.md law (b)): the word with its groups made canonical, or,
for a zero of combination field 24, that zero with combination field 0. -/
def Obligations.DecodeThenEncodeGivesTheCanonicalWord : Prop :=
  ∀ (s : State) (w : Word), s.TablesLoaded → s.hwAvail = true → special w = false →
    ∃ x d : Word, exec (.bexp w) s = .next (s.answered (.ok x)) ∧ exec (.xdig w) s = .next (s.answered (.ok d))
      ∧ exec (.encbcd (sign w) (x.extractLsb' 0 32) d) s
          = .next (s.answered (.ok
              (if readsAsZeroAnomaly w then sign w ++ 0#5 ++ ec w ++ 0#50 else canonicalWord w)))

/-- Packed round trip (the spec's own derivation, 42_word_encode.md law (c)): `W2PD` after `ENCPD` returns the digits with
the sign code `0xD` for a negative code and a magnitude that is not 0, else `0xC`. -/
def Obligations.PackedRoundTripKeepsTheDigits : Prop :=
  ∀ (s : State) (x : BitVec 32) (p : Word), s.TablesLoaded → s.hwAvail = true →
    0 ≤ x.toInt → x.toInt ≤ 767 → validDigits (p.extractLsb' 4 60) 15 = true →
    ∃ w : Word, exec (.encpd x p) s = .next (s.answered (.ok w))
      ∧ exec (.w2pd w) s = .next (s.answered (.ok
          (p.extractLsb' 4 60
            ++ (if (nibble p 0 = 0xB ∨ nibble p 0 = 0xD) ∧ p.extractLsb' 4 60 ≠ 0 then 0xD#4 else 0xC#4))))

/-- `UVAL` after `ENCLONG` (the spec's own derivation, 42_word_encode.md law (d)): the magnitude, but 0 for the magnitude
8000000000000000 with a biased exponent below 256. -/
def Obligations.UvalOfEnclongIsTheMagnitude : Prop :=
  ∀ (s : State) (x : BitVec 32) (n : Word), s.TablesLoaded → s.hwAvail = true →
    0 ≤ x.toInt → x.toInt ≤ 767 → n.toInt.natAbs ≤ 9999999999999999 →
    ∃ w : Word, exec (.enclong x n) s = .next (s.answered (.ok w))
      ∧ exec (.uval w) s = .next (s.answered (.ok
          (if n.toInt.natAbs = 8000000000000000 ∧ x.toInt < 256 then 0 else BitVec.ofNat 64 n.toInt.natAbs)))

/-! ### Boundary operations -/

/-- R160: `PDSIGN` answers 1 for the codes `0xB` and `0xD` and 0 for the fourteen others. -/
def Obligations.PdsignTellsTheNegativeCodes : Prop :=
  ∀ (s : State) (n4 : BitVec 4),
    exec (.pdsign n4) s = .next (s.answered (.ok (if n4 = 0xB ∨ n4 = 0xD then 1 else 0)))

/-- R161, R69: `RMMAP` of a classlib ordinal answers the hardware code of the same mode, and of that code the ordinal
again. -/
def Obligations.RmmapGivesTheCodeOfTheSameMode : Prop :=
  ∀ (s : State) (m : RoundingMode),
    exec (.rmmap m.ordinal) s = .next (s.answered (.ok (m.hardwareCode.setWidth 64)))
      ∧ exec (.rmmap m.hardwareCode) s = .next (s.answered (.ok (m.ordinal.setWidth 64)))

/-- R162: `NDIG` answers the digit count of the magnitude, 1 to 19, and 1 for 0; the magnitude of -2^63 is 2^63. -/
def Obligations.NdigCountsTheDecimalDigits : Prop :=
  ∀ (s : State) (n : Word), s.TablesLoaded →
    ∃ k : Nat, exec (.ndig n) s = .next (s.answered (.ok (BitVec.ofNat 64 k))) ∧ 1 ≤ k ∧ k ≤ 19
      ∧ n.toInt.natAbs < 10 ^ k ∧ (k = 1 ∨ 10 ^ (k - 1) ≤ n.toInt.natAbs)

/-! ### The host's side -/

/-- `pack_be` and `unpack_be` (43_ancillary.md): unpacking packed bytes gives them back left-padded to 8 bytes, and packing
unpacked bytes gives the value back. -/
def Obligations.UnpackingPackedBytesPadsThem : Prop :=
  (∀ bytes : List Byte, bytes.length ≤ 8 →
      unpackBe (packBe bytes) = List.replicate (8 - bytes.length) 0#8 ++ bytes)
    ∧ ∀ p : Word, packBe (unpackBe p) = p

/-- Where the host may take the fast path, fast and slow decoding agree: the word's number is the slow path's, or both
report the format error (the spec's own derivation, 43_ancillary.md, the slow path of decoding). -/
def Obligations.FastAndSlowDecodingAgree : Prop :=
  ∀ (s : State) (b : PackedBytes) (scale : Int), s.TablesLoaded → fastAdmissible s b scale = true →
    (∃ w : Word, decodeFast s b scale = some (.word w) ∧ decodeSlow b scale = .number (wordValue w))
      ∨ (decodeFast s b scale = some .formatError ∧ decodeSlow b scale = .formatError)

/-- Slow-path round trip (43_ancillary.md, slow encoding and the round trip): the bytes of an integer have the length
`ceil((digitCount + 1) / 2)` and decode to the same number. -/
def Obligations.SlowEncodingDecodesToTheSameNumber : Prop :=
  ∀ (n scale : Int), ∃ b : PackedBytes, encodeSlow n = b.toList
    ∧ b.toList.length = ((decimalString n.natAbs).length + 2) / 2
    ∧ decodeSlow b scale = .number ⟨n, -scale⟩

/-- Fast-path round trip (43_ancillary.md, law (a) and (c)): encoding a fast-decoded word gives 8 bytes, the input
left-padded, its sign code replaced by `0xD` for a negative code and some digit not 0, else by `0xC`. -/
def Obligations.FastEncodingReturnsThePaddedBytes : Prop :=
  ∀ (s : State) (b : PackedBytes) (scale : Int) (w : Word), s.TablesLoaded →
    decodeFast s b scale = some (.word w) →
    encodeFast s w = some (List.replicate (8 - b.toList.length) 0#8 ++ b.init
      ++ [hiNibble b.last
            ++ (if (loNibble b.last = 0xB ∨ loNibble b.last = 0xD) ∧ b.digitString.any (· ≠ 0#4) then 0xD#4 else 0xC#4)])

/-- A written line (30_encoding.md section 9): the block's tables and strap stay as they were, and `<dest>` is defined as
the result when the status is `OK` and not otherwise. -/
def Obligations.AWrittenLineDefinesItsDestOnSuccessOnly : Prop :=
  ∀ (s t : State) (vars vars' : HostVars) (l : WrittenLine), evaluateLine s vars l = some (t, vars') →
    (t.romDpd = s.romDpd ∧ t.romCombo = s.romCombo ∧ t.romPow10 = s.romPow10 ∧ t.hwAvail = s.hwAvail
        ∧ t.requests = s.requests)
      ∧ ((∃ r, t.response = some (.ok r) ∧ vars' = (l.dest, r) :: vars)
        ∨ (∃ f, t.response = some (.failed f) ∧ vars' = vars))
end

