-- ==== Sys2Proof/Laws/State.lean ====
section
/-! SUPPORT. One lemma per field per update of the state, and the updates the operations and the ports make. -/

namespace Sys2Proof.Machine

variable (s : State) (r : Response) (q : Request)

@[simp] theorem State.answered_romDpd : (s.answered r).romDpd = s.romDpd := rfl
@[simp] theorem State.answered_romCombo : (s.answered r).romCombo = s.romCombo := rfl
@[simp] theorem State.answered_romPow10 : (s.answered r).romPow10 = s.romPow10 := rfl
@[simp] theorem State.answered_hwAvail : (s.answered r).hwAvail = s.hwAvail := rfl
@[simp] theorem State.answered_requests : (s.answered r).requests = s.requests := rfl
@[simp] theorem State.answered_response : (s.answered r).response = some r := rfl
@[simp] theorem State.answered_answered (r' : Response) : (s.answered r').answered r = s.answered r := rfl

@[simp] theorem State.presentFirst_romDpd : (s.presentFirst q).romDpd = s.romDpd := rfl
@[simp] theorem State.presentFirst_romCombo : (s.presentFirst q).romCombo = s.romCombo := rfl
@[simp] theorem State.presentFirst_romPow10 : (s.presentFirst q).romPow10 = s.romPow10 := rfl
@[simp] theorem State.presentFirst_hwAvail : (s.presentFirst q).hwAvail = s.hwAvail := rfl
@[simp] theorem State.presentFirst_requests : (s.presentFirst q).requests = q :: s.requests := rfl
@[simp] theorem State.presentFirst_response : (s.presentFirst q).response = s.response := rfl

@[simp] theorem State.present_romDpd : (s.present q).romDpd = s.romDpd := rfl
@[simp] theorem State.present_romCombo : (s.present q).romCombo = s.romCombo := rfl
@[simp] theorem State.present_romPow10 : (s.present q).romPow10 = s.romPow10 := rfl
@[simp] theorem State.present_hwAvail : (s.present q).hwAvail = s.hwAvail := rfl
@[simp] theorem State.present_requests : (s.present q).requests = s.requests ++ [q] := rfl
@[simp] theorem State.present_response : (s.present q).response = s.response := rfl

@[simp] theorem State.resetInput_romDpd : s.resetInput.romDpd = Rom.dpd := by simp only [State.resetInput]
@[simp] theorem State.resetInput_romCombo : s.resetInput.romCombo = Rom.combo := by simp only [State.resetInput]
@[simp] theorem State.resetInput_romPow10 : s.resetInput.romPow10 = Rom.pow10 := by simp only [State.resetInput]
@[simp] theorem State.resetInput_hwAvail : s.resetInput.hwAvail = s.hwAvail := rfl
@[simp] theorem State.resetInput_requests : s.resetInput.requests = s.requests := rfl
@[simp] theorem State.resetInput_response : s.resetInput.response = s.response := rfl

end Sys2Proof.Machine
end

