-- ==== Sys2Proof/Laws/Ops.lean ====
section
/-! SUPPORT. For each shared operation, once, everything it can do: completing, taking a request, reading a table whose
contents are loaded. The provers cite these and unfold nothing. -/

namespace Sys2Proof.Machine

/-- Completing changes the response port only, whatever the status (60_exceptions.md R204). -/
@[simp] theorem complete_eq_next (r : Response) (s : State) : complete r s = .next (s.answered r) := rfl

@[simp] theorem raise_eq_failed (f : Failure) : raise f = .failed f := rfl

theorem ret_eq_ok {n : Nat} (v : BitVec n) : ret v = .ok (v.setWidth 64) := rfl

@[simp] theorem ret_word (v : Word) : ret v = .ok v := by simp [ret]

theorem retInt_eq_ok (v : Int) : retInt v = .ok (BitVec.ofInt 64 v) := rfl

/-- With no request presented the step waits. -/
theorem takeRequest_nil (s : State) (h : s.requests = []) : s.takeRequest = none := by
  simp [State.takeRequest, h]

/-- The oldest request is taken and only the request port changes. -/
theorem takeRequest_cons (s : State) (q : Request) (rest : List Request) (h : s.requests = q :: rest) :
    s.takeRequest = some (q, { s with requests := rest }) := by
  simp [State.takeRequest, h]

/-- Entry `g` of `ROM_DPD` is the printed entry. -/
theorem Rom.dpd_getElem (g : Nat) (h : g < 1024) : Rom.dpd[g] = Rom.dpdAt g := by
  unfold Rom.dpd
  rw [Vector.getElem_mk, List.getElem_toArray, List.getElem_map, List.getElem_range]

/-- Entry `g` of the loaded `ROM_DPD` is the printed entry. -/
theorem State.TablesLoaded.dpdEntry {s : State} (h : s.TablesLoaded) (g : Group) :
    s.dpdEntry g = Rom.dpdAt g.toNat := by
  obtain ⟨d, c, p, hw, rq, rs⟩ := s
  obtain rfl : d = Rom.dpd := h.dpd
  exact Rom.dpd_getElem _ g.isLt

/-- Entry `c`, 0 to 29, of the loaded `ROM_COMBO` is the printed entry. -/
theorem State.TablesLoaded.comboEntry {s : State} (h : s.TablesLoaded) (c : BitVec 5) (hc : c.toNat < 30) :
    s.comboEntry c = Rom.combo[c.toNat] :=
  h.combo ⟨c.toNat, hc⟩

/-- Entry `i` of the loaded `ROM_POW10` is the printed entry. -/
theorem State.TablesLoaded.pow10Entry? {s : State} (h : s.TablesLoaded) (i : Nat) :
    s.pow10Entry? i = Rom.pow10[i]? := by
  rw [State.pow10Entry?, h.pow10]

/-- An index of `ROM_POW10` is inside the table exactly below 19, in every state. -/
theorem pow10Entry?_eq_none (s : State) (i : Nat) : s.pow10Entry? i = none ↔ 19 ≤ i := by
  simp [State.pow10Entry?]

end Sys2Proof.Machine
end

