-- ==== Sys2Proof/Laws/Fields.lean ====
section
/-! SUPPORT. Reading back the fields of what a concatenation built: a request (30_encoding.md R70), a word
(42_word_encode.md R140) and a digit stream (41_word_decode.md R120). -/

namespace Sys2Proof

section
variable (op : BitVec 5) (s : BitVec 1) (e : BitVec 32) (a : Word)

@[simp] theorem opField_mkRequest : opField (mkRequest op s e a) = op := by
  show @BitVec.extractLsb' (5 + 1 + 32 + 64) 97 5 (op ++ s ++ e ++ a) = op
  rw [BitVec.extractLsb'_append_eq_of_le (by omega), BitVec.extractLsb'_append_eq_of_le (by omega),
    BitVec.extractLsb'_append_eq_of_le (by omega)]
  exact BitVec.extractLsb'_eq_self

@[simp] theorem sField_mkRequest : sField (mkRequest op s e a) = s := by
  show @BitVec.extractLsb' (5 + 1 + 32 + 64) 96 1 (op ++ s ++ e ++ a) = s
  rw [BitVec.extractLsb'_append_eq_of_le (by omega), BitVec.extractLsb'_append_eq_of_le (by omega),
    BitVec.extractLsb'_append_eq_of_add_le (by omega)]
  exact BitVec.extractLsb'_eq_self

@[simp] theorem eField_mkRequest : eField (mkRequest op s e a) = e := by
  show @BitVec.extractLsb' (5 + 1 + 32 + 64) 64 32 (op ++ s ++ e ++ a) = e
  rw [BitVec.extractLsb'_append_eq_of_le (by omega), BitVec.extractLsb'_append_eq_of_add_le (by omega)]
  exact BitVec.extractLsb'_eq_self

@[simp] theorem aField_mkRequest : aField (mkRequest op s e a) = a := by
  show @BitVec.extractLsb' (5 + 1 + 32 + 64) 0 64 (op ++ s ++ e ++ a) = a
  rw [BitVec.extractLsb'_append_eq_of_add_le (by omega)]
  exact BitVec.extractLsb'_eq_self

end

/-- A request is its four fields. -/
theorem mkRequest_fields (q : Request) : mkRequest (opField q) (sField q) (eField q) (aField q) = q := by
  unfold mkRequest opField sField eField aField
  rw [BitVec.extractLsb'_append_extractLsb'_eq_extractLsb' (by rfl),
    BitVec.extractLsb'_append_extractLsb'_eq_extractLsb' (by rfl),
    BitVec.extractLsb'_append_extractLsb'_eq_extractLsb' (by rfl)]
  exact BitVec.extractLsb'_eq_self

namespace Machine

/-- A word is its sign, combination field, exponent continuation and five groups (30_encoding.md R60). -/
theorem word_fields (w : Word) :
    sign w ++ cf w ++ ec w ++ grp w 0 ++ grp w 1 ++ grp w 2 ++ grp w 3 ++ grp w 4 = w := by
  unfold sign cf ec grp
  rw [BitVec.extractLsb'_append_extractLsb'_eq_extractLsb' (by rfl),
    BitVec.extractLsb'_append_extractLsb'_eq_extractLsb' (by rfl),
    BitVec.extractLsb'_append_extractLsb'_eq_extractLsb' (by rfl),
    BitVec.extractLsb'_append_extractLsb'_eq_extractLsb' (by rfl),
    BitVec.extractLsb'_append_extractLsb'_eq_extractLsb' (by rfl),
    BitVec.extractLsb'_append_extractLsb'_eq_extractLsb' (by rfl),
    BitVec.extractLsb'_append_extractLsb'_eq_extractLsb' (by rfl)]
  exact BitVec.extractLsb'_eq_self

section
variable (s : State) (sg : BitVec 1) (x : BitVec 10) (b : Word)

@[simp] theorem sign_encodeWord : sign (s.encodeWord sg x b) = sg := by
  show @BitVec.extractLsb' (1 + 5 + 8 + 10 + 10 + 10 + 10 + 10) 63 1
    (sg ++ comboenc (b.extractLsb' 60 4) (x.extractLsb' 8 2) ++ x.extractLsb' 0 8
      ++ s.bcd2dpd (b.extractLsb' 48 12) ++ s.bcd2dpd (b.extractLsb' 36 12) ++ s.bcd2dpd (b.extractLsb' 24 12)
      ++ s.bcd2dpd (b.extractLsb' 12 12) ++ s.bcd2dpd (b.extractLsb' 0 12))
      = sg
  rw [BitVec.extractLsb'_append_eq_of_le (by omega), BitVec.extractLsb'_append_eq_of_le (by omega),
    BitVec.extractLsb'_append_eq_of_le (by omega), BitVec.extractLsb'_append_eq_of_le (by omega),
    BitVec.extractLsb'_append_eq_of_le (by omega), BitVec.extractLsb'_append_eq_of_le (by omega),
    BitVec.extractLsb'_append_eq_of_le (by omega)]
  exact BitVec.extractLsb'_eq_self

@[simp] theorem cf_encodeWord : cf (s.encodeWord sg x b) = comboenc (b.extractLsb' 60 4) (x.extractLsb' 8 2) := by
  show @BitVec.extractLsb' (1 + 5 + 8 + 10 + 10 + 10 + 10 + 10) 58 5
    (sg ++ comboenc (b.extractLsb' 60 4) (x.extractLsb' 8 2) ++ x.extractLsb' 0 8
      ++ s.bcd2dpd (b.extractLsb' 48 12) ++ s.bcd2dpd (b.extractLsb' 36 12) ++ s.bcd2dpd (b.extractLsb' 24 12)
      ++ s.bcd2dpd (b.extractLsb' 12 12) ++ s.bcd2dpd (b.extractLsb' 0 12))
      = comboenc (b.extractLsb' 60 4) (x.extractLsb' 8 2)
  rw [BitVec.extractLsb'_append_eq_of_le (by omega), BitVec.extractLsb'_append_eq_of_le (by omega),
    BitVec.extractLsb'_append_eq_of_le (by omega), BitVec.extractLsb'_append_eq_of_le (by omega),
    BitVec.extractLsb'_append_eq_of_le (by omega), BitVec.extractLsb'_append_eq_of_le (by omega),
    BitVec.extractLsb'_append_eq_of_add_le (by omega)]
  exact BitVec.extractLsb'_eq_self

@[simp] theorem ec_encodeWord : ec (s.encodeWord sg x b) = x.extractLsb' 0 8 := by
  show @BitVec.extractLsb' (1 + 5 + 8 + 10 + 10 + 10 + 10 + 10) 50 8
    (sg ++ comboenc (b.extractLsb' 60 4) (x.extractLsb' 8 2) ++ x.extractLsb' 0 8
      ++ s.bcd2dpd (b.extractLsb' 48 12) ++ s.bcd2dpd (b.extractLsb' 36 12) ++ s.bcd2dpd (b.extractLsb' 24 12)
      ++ s.bcd2dpd (b.extractLsb' 12 12) ++ s.bcd2dpd (b.extractLsb' 0 12))
      = x.extractLsb' 0 8
  rw [BitVec.extractLsb'_append_eq_of_le (by omega), BitVec.extractLsb'_append_eq_of_le (by omega),
    BitVec.extractLsb'_append_eq_of_le (by omega), BitVec.extractLsb'_append_eq_of_le (by omega),
    BitVec.extractLsb'_append_eq_of_le (by omega), BitVec.extractLsb'_append_eq_of_add_le (by omega)]
  exact BitVec.extractLsb'_eq_self

@[simp] theorem grp0_encodeWord : grp (s.encodeWord sg x b) 0 = s.bcd2dpd (b.extractLsb' 48 12) := by
  show @BitVec.extractLsb' (1 + 5 + 8 + 10 + 10 + 10 + 10 + 10) 40 10
    (sg ++ comboenc (b.extractLsb' 60 4) (x.extractLsb' 8 2) ++ x.extractLsb' 0 8
      ++ s.bcd2dpd (b.extractLsb' 48 12) ++ s.bcd2dpd (b.extractLsb' 36 12) ++ s.bcd2dpd (b.extractLsb' 24 12)
      ++ s.bcd2dpd (b.extractLsb' 12 12) ++ s.bcd2dpd (b.extractLsb' 0 12))
      = s.bcd2dpd (b.extractLsb' 48 12)
  rw [BitVec.extractLsb'_append_eq_of_le (by omega), BitVec.extractLsb'_append_eq_of_le (by omega),
    BitVec.extractLsb'_append_eq_of_le (by omega), BitVec.extractLsb'_append_eq_of_le (by omega),
    BitVec.extractLsb'_append_eq_of_add_le (by omega)]
  exact BitVec.extractLsb'_eq_self

@[simp] theorem grp1_encodeWord : grp (s.encodeWord sg x b) 1 = s.bcd2dpd (b.extractLsb' 36 12) := by
  show @BitVec.extractLsb' (1 + 5 + 8 + 10 + 10 + 10 + 10 + 10) 30 10
    (sg ++ comboenc (b.extractLsb' 60 4) (x.extractLsb' 8 2) ++ x.extractLsb' 0 8
      ++ s.bcd2dpd (b.extractLsb' 48 12) ++ s.bcd2dpd (b.extractLsb' 36 12) ++ s.bcd2dpd (b.extractLsb' 24 12)
      ++ s.bcd2dpd (b.extractLsb' 12 12) ++ s.bcd2dpd (b.extractLsb' 0 12))
      = s.bcd2dpd (b.extractLsb' 36 12)
  rw [BitVec.extractLsb'_append_eq_of_le (by omega), BitVec.extractLsb'_append_eq_of_le (by omega),
    BitVec.extractLsb'_append_eq_of_le (by omega), BitVec.extractLsb'_append_eq_of_add_le (by omega)]
  exact BitVec.extractLsb'_eq_self

@[simp] theorem grp2_encodeWord : grp (s.encodeWord sg x b) 2 = s.bcd2dpd (b.extractLsb' 24 12) := by
  show @BitVec.extractLsb' (1 + 5 + 8 + 10 + 10 + 10 + 10 + 10) 20 10
    (sg ++ comboenc (b.extractLsb' 60 4) (x.extractLsb' 8 2) ++ x.extractLsb' 0 8
      ++ s.bcd2dpd (b.extractLsb' 48 12) ++ s.bcd2dpd (b.extractLsb' 36 12) ++ s.bcd2dpd (b.extractLsb' 24 12)
      ++ s.bcd2dpd (b.extractLsb' 12 12) ++ s.bcd2dpd (b.extractLsb' 0 12))
      = s.bcd2dpd (b.extractLsb' 24 12)
  rw [BitVec.extractLsb'_append_eq_of_le (by omega), BitVec.extractLsb'_append_eq_of_le (by omega),
    BitVec.extractLsb'_append_eq_of_add_le (by omega)]
  exact BitVec.extractLsb'_eq_self

@[simp] theorem grp3_encodeWord : grp (s.encodeWord sg x b) 3 = s.bcd2dpd (b.extractLsb' 12 12) := by
  show @BitVec.extractLsb' (1 + 5 + 8 + 10 + 10 + 10 + 10 + 10) 10 10
    (sg ++ comboenc (b.extractLsb' 60 4) (x.extractLsb' 8 2) ++ x.extractLsb' 0 8
      ++ s.bcd2dpd (b.extractLsb' 48 12) ++ s.bcd2dpd (b.extractLsb' 36 12) ++ s.bcd2dpd (b.extractLsb' 24 12)
      ++ s.bcd2dpd (b.extractLsb' 12 12) ++ s.bcd2dpd (b.extractLsb' 0 12))
      = s.bcd2dpd (b.extractLsb' 12 12)
  rw [BitVec.extractLsb'_append_eq_of_le (by omega), BitVec.extractLsb'_append_eq_of_add_le (by omega)]
  exact BitVec.extractLsb'_eq_self

@[simp] theorem grp4_encodeWord : grp (s.encodeWord sg x b) 4 = s.bcd2dpd (b.extractLsb' 0 12) := by
  show @BitVec.extractLsb' (1 + 5 + 8 + 10 + 10 + 10 + 10 + 10) 0 10
    (sg ++ comboenc (b.extractLsb' 60 4) (x.extractLsb' 8 2) ++ x.extractLsb' 0 8
      ++ s.bcd2dpd (b.extractLsb' 48 12) ++ s.bcd2dpd (b.extractLsb' 36 12) ++ s.bcd2dpd (b.extractLsb' 24 12)
      ++ s.bcd2dpd (b.extractLsb' 12 12) ++ s.bcd2dpd (b.extractLsb' 0 12))
      = s.bcd2dpd (b.extractLsb' 0 12)
  rw [BitVec.extractLsb'_append_eq_of_add_le (by omega)]
  exact BitVec.extractLsb'_eq_self

end

section
variable (s : State) (w : Word)

/-- The digits of a word that tests zero are all zero. -/
theorem digits_of_isZero (h : isZero w = true) : s.digits w = 0 := by simp [State.digits, h]

theorem digits_of_not_isZero (h : isZero w = false) :
    s.digits w = ((s.lead w).extractLsb' 0 4 ++ s.dpdDigits (grp w 0) ++ s.dpdDigits (grp w 1) ++ s.dpdDigits (grp w 2)
      ++ s.dpdDigits (grp w 3) ++ s.dpdDigits (grp w 4)) := by
  simp [State.digits, h]

theorem lead_of_digits (h : isZero w = false) :
    (s.digits w).extractLsb' 60 4 = (s.lead w).extractLsb' 0 4 := by
  rw [digits_of_not_isZero s w h]
  show @BitVec.extractLsb' (4 + 12 + 12 + 12 + 12 + 12) 60 4
    ((s.lead w).extractLsb' 0 4 ++ s.dpdDigits (grp w 0) ++ s.dpdDigits (grp w 1) ++ s.dpdDigits (grp w 2)
      ++ s.dpdDigits (grp w 3) ++ s.dpdDigits (grp w 4))
      = (s.lead w).extractLsb' 0 4
  rw [BitVec.extractLsb'_append_eq_of_le (by omega), BitVec.extractLsb'_append_eq_of_le (by omega),
    BitVec.extractLsb'_append_eq_of_le (by omega), BitVec.extractLsb'_append_eq_of_le (by omega),
    BitVec.extractLsb'_append_eq_of_le (by omega)]
  exact BitVec.extractLsb'_eq_self

theorem grp0_of_digits (h : isZero w = false) :
    (s.digits w).extractLsb' 48 12 = s.dpdDigits (grp w 0) := by
  rw [digits_of_not_isZero s w h]
  show @BitVec.extractLsb' (4 + 12 + 12 + 12 + 12 + 12) 48 12
    ((s.lead w).extractLsb' 0 4 ++ s.dpdDigits (grp w 0) ++ s.dpdDigits (grp w 1) ++ s.dpdDigits (grp w 2)
      ++ s.dpdDigits (grp w 3) ++ s.dpdDigits (grp w 4))
      = s.dpdDigits (grp w 0)
  rw [BitVec.extractLsb'_append_eq_of_le (by omega), BitVec.extractLsb'_append_eq_of_le (by omega),
    BitVec.extractLsb'_append_eq_of_le (by omega), BitVec.extractLsb'_append_eq_of_le (by omega),
    BitVec.extractLsb'_append_eq_of_add_le (by omega)]
  exact BitVec.extractLsb'_eq_self

theorem grp1_of_digits (h : isZero w = false) :
    (s.digits w).extractLsb' 36 12 = s.dpdDigits (grp w 1) := by
  rw [digits_of_not_isZero s w h]
  show @BitVec.extractLsb' (4 + 12 + 12 + 12 + 12 + 12) 36 12
    ((s.lead w).extractLsb' 0 4 ++ s.dpdDigits (grp w 0) ++ s.dpdDigits (grp w 1) ++ s.dpdDigits (grp w 2)
      ++ s.dpdDigits (grp w 3) ++ s.dpdDigits (grp w 4))
      = s.dpdDigits (grp w 1)
  rw [BitVec.extractLsb'_append_eq_of_le (by omega), BitVec.extractLsb'_append_eq_of_le (by omega),
    BitVec.extractLsb'_append_eq_of_le (by omega), BitVec.extractLsb'_append_eq_of_add_le (by omega)]
  exact BitVec.extractLsb'_eq_self

theorem grp2_of_digits (h : isZero w = false) :
    (s.digits w).extractLsb' 24 12 = s.dpdDigits (grp w 2) := by
  rw [digits_of_not_isZero s w h]
  show @BitVec.extractLsb' (4 + 12 + 12 + 12 + 12 + 12) 24 12
    ((s.lead w).extractLsb' 0 4 ++ s.dpdDigits (grp w 0) ++ s.dpdDigits (grp w 1) ++ s.dpdDigits (grp w 2)
      ++ s.dpdDigits (grp w 3) ++ s.dpdDigits (grp w 4))
      = s.dpdDigits (grp w 2)
  rw [BitVec.extractLsb'_append_eq_of_le (by omega), BitVec.extractLsb'_append_eq_of_le (by omega),
    BitVec.extractLsb'_append_eq_of_add_le (by omega)]
  exact BitVec.extractLsb'_eq_self

theorem grp3_of_digits (h : isZero w = false) :
    (s.digits w).extractLsb' 12 12 = s.dpdDigits (grp w 3) := by
  rw [digits_of_not_isZero s w h]
  show @BitVec.extractLsb' (4 + 12 + 12 + 12 + 12 + 12) 12 12
    ((s.lead w).extractLsb' 0 4 ++ s.dpdDigits (grp w 0) ++ s.dpdDigits (grp w 1) ++ s.dpdDigits (grp w 2)
      ++ s.dpdDigits (grp w 3) ++ s.dpdDigits (grp w 4))
      = s.dpdDigits (grp w 3)
  rw [BitVec.extractLsb'_append_eq_of_le (by omega), BitVec.extractLsb'_append_eq_of_add_le (by omega)]
  exact BitVec.extractLsb'_eq_self

theorem grp4_of_digits (h : isZero w = false) :
    (s.digits w).extractLsb' 0 12 = s.dpdDigits (grp w 4) := by
  rw [digits_of_not_isZero s w h]
  show @BitVec.extractLsb' (4 + 12 + 12 + 12 + 12 + 12) 0 12
    ((s.lead w).extractLsb' 0 4 ++ s.dpdDigits (grp w 0) ++ s.dpdDigits (grp w 1) ++ s.dpdDigits (grp w 2)
      ++ s.dpdDigits (grp w 3) ++ s.dpdDigits (grp w 4))
      = s.dpdDigits (grp w 4)
  rw [BitVec.extractLsb'_append_eq_of_add_le (by omega)]
  exact BitVec.extractLsb'_eq_self

end

end Machine

end Sys2Proof
end

