-- ==== Sys2Proof/Laws/PerInstr.lean ====
section
/-! SUPPORT. Statements about an instruction as syntax, one lemma per constructor. Family `TableRow`: the request of an
instruction matches its row of the opcode table, `request & mask = match` (30_encoding.md R72, its last paragraph). -/

namespace Sys2Proof

/-- The `mask` column: the `op` field, `0x1F << 97`. -/
def tableMask : Request := 0x3E000000000000000000000000

/-- The `match` column of the row of each operation. -/
def tableMatch : Instr → Request
  | .dpd2bcd _ => 0x00000000000000000000000000
  | .bcd2dpd _ => 0x02000000000000000000000000
  | .combo _ => 0x04000000000000000000000000
  | .comboenc _ _ => 0x06000000000000000000000000
  | .pow10 _ => 0x08000000000000000000000000
  | .iszero _ => 0x10000000000000000000000000
  | .wsign _ => 0x12000000000000000000000000
  | .bexp _ => 0x14000000000000000000000000
  | .uexp _ => 0x16000000000000000000000000
  | .xdig _ => 0x18000000000000000000000000
  | .uval _ => 0x1A000000000000000000000000
  | .sigd _ => 0x1C000000000000000000000000
  | .signum _ => 0x1E000000000000000000000000
  | .bias _ => 0x20000000000000000000000000
  | .encbcd _ _ _ => 0x22000000000000000000000000
  | .enclong _ _ => 0x24000000000000000000000000
  | .encpd _ _ => 0x26000000000000000000000000
  | .w2pd _ => 0x28000000000000000000000000
  | .zfix _ => 0x2A000000000000000000000000
  | .pdsign _ => 0x30000000000000000000000000
  | .rmmap _ => 0x32000000000000000000000000
  | .ndig _ => 0x34000000000000000000000000

/-- The mask keeps the operation code of a request and nothing else. -/
theorem mkRequest_and_tableMask (op : BitVec 5) (s : BitVec 1) (e : BitVec 32) (a : Word) :
    mkRequest op s e a &&& tableMask = op ++ 0#97 := by
  have hm : tableMask = BitVec.allOnes 5 ++ 0#97 := by decide
  rw [hm]
  ext i hi
  simp only [mkRequest, BitVec.getElem_and, BitVec.getElem_append, BitVec.getElem_allOnes, BitVec.getElem_zero]
  by_cases h : i < 97
  · rw [BitVec.getElem_append]
    simp [h]
  · rw [BitVec.getElem_append]
    simp [h, show ¬ i < 64 by omega, show ¬ i - 64 < 32 by omega, show ¬ i - 96 = 0 by omega, Nat.sub_sub]

namespace Laws.TableRow

/-- The request of `i` masked by the table's mask is the `match` of its row. -/
def Statement (i : Instr) : Prop := encode i &&& tableMask = tableMatch i

theorem dpd2bcd (g : Group) : Statement (.dpd2bcd g) := mkRequest_and_tableMask ..
theorem bcd2dpd (d : Digits3) : Statement (.bcd2dpd d) := mkRequest_and_tableMask ..
theorem combo (c : BitVec 5) : Statement (.combo c) := mkRequest_and_tableMask ..
theorem comboenc (digit : BitVec 4) (exphi : BitVec 2) : Statement (.comboenc digit exphi) :=
  mkRequest_and_tableMask ..
theorem pow10 (i : BitVec 5) : Statement (.pow10 i) := mkRequest_and_tableMask ..
theorem iszero (w : Word) : Statement (.iszero w) := mkRequest_and_tableMask ..
theorem wsign (w : Word) : Statement (.wsign w) := mkRequest_and_tableMask ..
theorem bexp (w : Word) : Statement (.bexp w) := mkRequest_and_tableMask ..
theorem uexp (w : Word) : Statement (.uexp w) := mkRequest_and_tableMask ..
theorem xdig (w : Word) : Statement (.xdig w) := mkRequest_and_tableMask ..
theorem uval (w : Word) : Statement (.uval w) := mkRequest_and_tableMask ..
theorem sigd (w : Word) : Statement (.sigd w) := mkRequest_and_tableMask ..
theorem signum (w : Word) : Statement (.signum w) := mkRequest_and_tableMask ..
theorem bias (q : BitVec 32) : Statement (.bias q) := mkRequest_and_tableMask ..
theorem encbcd (sg : BitVec 1) (x : BitVec 32) (b : Word) : Statement (.encbcd sg x b) := mkRequest_and_tableMask ..
theorem enclong (x : BitVec 32) (n : Word) : Statement (.enclong x n) := mkRequest_and_tableMask ..
theorem encpd (x : BitVec 32) (p : Word) : Statement (.encpd x p) := mkRequest_and_tableMask ..
theorem w2pd (w : Word) : Statement (.w2pd w) := mkRequest_and_tableMask ..
theorem zfix (w : Word) : Statement (.zfix w) := mkRequest_and_tableMask ..
theorem pdsign (n4 : BitVec 4) : Statement (.pdsign n4) := mkRequest_and_tableMask ..
theorem rmmap (m : BitVec 3) : Statement (.rmmap m) := mkRequest_and_tableMask ..
theorem ndig (n : Word) : Statement (.ndig n) := mkRequest_and_tableMask ..

end Laws.TableRow

end Sys2Proof
end

