-- ==== Sys2Proof/Laws/Step.lean ====
section
/-! SUPPORT. What `exec` and `step` can do, said once, and what the host reads from one evaluation. -/

namespace Sys2Proof.Machine

/-- Every operation answers, and changes the response port only (40_tables.md R105). -/
theorem exec_answers (i : Instr) (s : State) : ∃ r, exec i s = .next (s.answered r) := by
  cases i <;> exact ⟨_, rfl⟩

/-- A step with no request presented waits. -/
theorem step_nil (s : State) (h : s.requests = []) : step s = .next { s with response := none } := by
  simp [step, takeRequest_nil s h, idle]

/-- A step with a request that is rejected. -/
theorem step_rejected (s : State) (q : Request) (rest : List Request) (e : DecodeError) (h : s.requests = q :: rest)
    (hd : decode q = .error e) :
    step s = .next (State.answered { s with requests := rest } (.failed .illegal)) := by
  simp [step, takeRequest_cons s q rest h, hd]

/-- The host reads the response that the operation puts on the port. -/
theorem evaluate_of_exec (s : State) (i : Instr) (r : Response) (h : exec i s = .next (s.answered r)) :
    evaluate s i = some r := by
  simp [evaluate, h]

end Sys2Proof.Machine
end

