-- ==== Sys2Proof/Tests/Slice0.lean ====
section
/-! SUPPORT. The model's own tests. Every expected value is printed in the spec: the examples of the rules and the vectors
of 95_test_vectors.md, or, for the decoding tests, the request written out from 30_encoding.md R70 and R72. The witnesses
at the end meet the hypotheses of the statements, each clause at a boundary value. -/

namespace Sys2Proof.Tests

-- One theorem after another: elaborated all at once, these evaluations ask for more threads than the check's memory has room for.
set_option Elab.async false

open Sys2Proof Sys2Proof.Machine

/-- The reset state with the strap at a known value. -/
def withStrap (hw : Bool) : State := { State.reset with hwAvail := hw }

/-- That state with one request presented. -/
def presented (hw : Bool) (q : Request) : State := (withStrap hw).presentFirst q

/-- The response of the block to one request. -/
def respond (hw : Bool) (q : Request) : Option Response :=
  match step (presented hw q) with
  | .next t => t.response
  | .fault _ => none
  | .refused _ => none

theorem withStrap_loaded (hw : Bool) : (withStrap hw).TablesLoaded := ⟨rfl, fun _ => rfl, rfl⟩

/-! ### Well-formedness: the one check refuses its ill-formed term -/

theorem test_wf_refuses_pow10_19 : (Instr.pow10 19).wf = false := by decide
theorem test_wf_accepts_pow10_18 : (Instr.pow10 18).wf = true := by decide

/-! ### Decoding: one request of every operation, written out from R70 and R72 -/

theorem test_decode_dpd2bcd : decodeTableWord 104 0x000000000000000000000003FF = some (.dpd2bcd 0x3FF) := by decide
theorem test_decode_bcd2dpd : decodeTableWord 104 0x02000000000000000000000999 = some (.bcd2dpd 0x999) := by decide
theorem test_decode_combo : decodeTableWord 104 0x0400000000000000000000001D = some (.combo 29) := by decide
theorem test_decode_comboenc : decodeTableWord 104 0x06000000000000000000000026 = some (.comboenc 9 2) := by decide
theorem test_decode_pow10 : decodeTableWord 104 0x08000000000000000000000003 = some (.pow10 3) := by decide
theorem test_decode_iszero :
    decodeTableWord 104 0x1000000000A230000000000000 = some (.iszero 0xA230000000000000) := by decide
theorem test_decode_wsign :
    decodeTableWord 104 0x1200000000A2300000000000A3 = some (.wsign 0xA2300000000000A3) := by decide
theorem test_decode_bexp :
    decodeTableWord 104 0x1400000000A2300000000000A3 = some (.bexp 0xA2300000000000A3) := by decide
theorem test_decode_uexp :
    decodeTableWord 104 0x1600000000A2300000000000A3 = some (.uexp 0xA2300000000000A3) := by decide
theorem test_decode_xdig :
    decodeTableWord 104 0x1800000000A2300000000000A3 = some (.xdig 0xA2300000000000A3) := by decide
theorem test_decode_uval :
    decodeTableWord 104 0x1A00000000223800000014D2E7 = some (.uval 0x223800000014D2E7) := by decide
theorem test_decode_sigd :
    decodeTableWord 104 0x1C00000000EE38FF3FCFF3FCFF = some (.sigd 0xEE38FF3FCFF3FCFF) := by decide
theorem test_decode_signum :
    decodeTableWord 104 0x1E00000000A2300000000000A3 = some (.signum 0xA2300000000000A3) := by decide
theorem test_decode_bias : decodeTableWord 104 0x20FFFFFFFE0000000000000000 = some (.bias 0xFFFFFFFE) := by decide
theorem test_decode_encbcd :
    decodeTableWord 104 0x230000018C0000000000000123 = some (.encbcd 1 396 0x123) := by decide
theorem test_decode_enclong :
    decodeTableWord 104 0x240000018E000000000012D687 = some (.enclong 398 1234567) := by decide
theorem test_decode_encpd : decodeTableWord 104 0x260000018C000000000000123D = some (.encpd 396 0x123D) := by decide
theorem test_decode_w2pd :
    decodeTableWord 104 0x2800000000A2300000000000A3 = some (.w2pd 0xA2300000000000A3) := by decide
theorem test_decode_zfix :
    decodeTableWord 104 0x2A00000000A230000000000000 = some (.zfix 0xA230000000000000) := by decide
theorem test_decode_pdsign : decodeTableWord 104 0x3000000000000000000000000D = some (.pdsign 0xD) := by decide
theorem test_decode_rmmap : decodeTableWord 104 0x32000000000000000000000006 = some (.rmmap 6) := by decide
theorem test_decode_ndig :
    decodeTableWord 104 0x34000000008000000000000000 = some (.ndig 0x8000000000000000) := by decide
theorem test_decode_reserved : decode 0x3FFFFFFFFFFFFFFFFFFFFFFFFF = .error (.reservedOp 0x1F) := rfl
theorem test_decode_unused_bit : decode 0x13000000002238000000000000 = .error (.unusedBits 0x09) := rfl
theorem test_decode_narrow_operand : decode 0x3000000000000000000000001D = .error (.unusedBits 0x18) := rfl

/-! ### Operations -/

theorem test_dpd2bcd_digits : respond true 0x000000000000000000000000A3 = some (.ok 0x123) := by decide +kernel
theorem test_dpd2bcd_non_canonical : respond true 0x0000000000000000000000016E = some (.ok 0x888) := by decide +kernel
theorem test_bcd2dpd_least : respond true 0x02000000000000000000000888 = some (.ok 0x6E) := by decide +kernel
theorem test_bcd2dpd_bad_digit : respond true 0x020000000000000000000001A2 = some (.failed .invalidEncoding) := by decide +kernel
theorem test_combo_nine : respond true 0x0400000000000000000000001D = some (.ok 0x26) := by decide +kernel
theorem test_combo_open_entry : respond true 0x0400000000000000000000001E = some (.failed .unsupported) := by decide +kernel
theorem test_comboenc_nine : respond true 0x06000000000000000000000025 = some (.ok 0x1B) := by decide +kernel
theorem test_comboenc_exponent_first : respond true 0x0600000000000000000000002B = some (.failed .unsupported) := by decide +kernel
theorem test_pow10_greatest : respond true 0x08000000000000000000000012 = some (.ok 0x0DE0B6B3A7640000) := by decide +kernel
theorem test_pow10_outside : respond true 0x08000000000000000000000013 = some (.failed .illegal) := by decide +kernel
theorem test_iszero_anomaly : respond true 0x10000000006238000000000000 = some (.ok 1) := by decide +kernel
theorem test_iszero_special : respond true 0x10000000007800000000000000 = some (.ok 0) := by decide +kernel
theorem test_wsign_negative_zero : respond true 0x1200000000A238000000000000 = some (.ok 1) := by decide +kernel
theorem test_bexp_greatest : respond true 0x140000000077FCFF3FCFF3FCFF = some (.ok 767) := by decide +kernel
theorem test_bexp_malformed_before_special : respond true 0x14FFFFFFFF7800000000000000 = some (.failed .illegal) := by decide +kernel
theorem test_uexp_least : respond true 0x1600000000E400FF3FCFF3FCFF = some (.ok 0xFFFFFFFFFFFFFE72) := by decide +kernel
theorem test_xdig_non_canonical : respond true 0x1800000000223800000005BBFF = some (.ok 0x888999) := by decide +kernel
theorem test_xdig_leading_eight : respond false 0x18000000006238000000000001 = some (.ok 0x8000000000000001) := by decide +kernel
theorem test_uval_digits : respond true 0x1A00000000223800000014D2E7 = some (.ok 1234567) := by decide +kernel
theorem test_uval_no_hardware : respond false 0x1A0000000022380000000000A3 = some (.failed .unsupported) := by decide +kernel
theorem test_sigd_trailing_zeros : respond true 0x1C000000002230000000000280 = some (.ok 3) := by decide +kernel
theorem test_sigd_zero : respond true 0x1C000000006238000000000000 = some (.ok 1) := by decide +kernel
theorem test_signum_negative : respond true 0x1E00000000A2300000000000A3 = some (.ok 0xFFFFFFFFFFFFFFFF) := by decide +kernel
theorem test_signum_negative_zero : respond true 0x1E00000000A230000000000000 = some (.ok 0) := by decide +kernel
theorem test_bias_least : respond true 0x20FFFFFE720000000000000000 = some (.ok 0) := by decide +kernel
theorem test_bias_no_wrap : respond true 0x207FFFFFFF0000000000000000 = some (.failed .unsupported) := by decide +kernel
theorem test_encbcd_word : respond true 0x22000002589000000000000001 = some (.ok 0x7560000000000001) := by decide +kernel
theorem test_encbcd_exponent_first : respond true 0x2200000300000000000000000A = some (.failed .unsupported) := by decide +kernel
theorem test_enclong_negative : respond true 0x240000018CFFFFFFFFFFFFFE0C = some (.ok 0xA230000000000280) := by decide +kernel
theorem test_enclong_least_i64 : respond true 0x240000018E8000000000000000 = some (.failed .unsupported) := by decide +kernel
theorem test_encpd_scenario_2 : respond true 0x260000018C000000000000123D = some (.ok 0xA2300000000000A3) := by decide +kernel
theorem test_encpd_bad_digit : respond true 0x260000018E0000000000001A3C = some (.failed .invalidEncoding) := by decide +kernel
theorem test_w2pd_negative : respond true 0x2800000000A2300000000000A3 = some (.ok 0x123D) := by decide +kernel
theorem test_w2pd_sixteen_digits : respond true 0x2800000000EE38FF3FCFF3FCFF = some (.failed .unsupported) := by decide +kernel
theorem test_zfix_negative_zero : respond true 0x2A00000000A230000000000000 = some (.ok 0x2230000000000000) := by decide +kernel
theorem test_zfix_special : respond true 0x2A00000000FC00000000000001 = some (.ok 0xFC00000000000001) := by decide +kernel
theorem test_pdsign_d : respond true 0x3000000000000000000000000D = some (.ok 1) := by decide +kernel
theorem test_pdsign_f : respond true 0x3000000000000000000000000F = some (.ok 0) := by decide +kernel
theorem test_rmmap_up : respond true 0x32000000000000000000000000 = some (.ok 6) := by decide +kernel
theorem test_rmmap_half_even : respond true 0x32000000000000000000000006 = some (.ok 0) := by decide +kernel
theorem test_ndig_eighteen : respond true 0x3400000000F21F494C589C0001 = some (.ok 18) := by decide +kernel
theorem test_ndig_least_i64 : respond true 0x34000000008000000000000000 = some (.ok 19) := by decide +kernel
theorem test_reserved_code : respond true 0x0B000000070000000000000123 = some (.failed .illegal) := by decide +kernel

/-! ### Facts of 10_state.md R30, counted over the 1024 printed entries -/

theorem test_dpd_distinct_values :
    (((List.range 1024).filter fun g => (dpdEncodeByRule ((Rom.dpdAt g).extractLsb' 0 12)).toNat == g).length = 1000) := by
  decide +kernel
theorem test_dpd_entries_of_2048_or_more : ((List.range 1024).filter fun g => 2048 ≤ (Rom.dpdAt g).toNat).length = 224 := by
  decide +kernel
/-- R101's count, not R30 (c)'s (log entry 17): 992 groups have a digit below 8, and each is the only group of its value. -/
theorem test_values_with_one_group :
    ((List.range 1024).filter fun g =>
      ((Rom.dpdAt g).extractLsb' 0 12 &&& 0x888) != 0x888 &&
        (dpdEncodeByRule ((Rom.dpdAt g).extractLsb' 0 12)).toNat == g).length = 992
      ∧ ((List.range 1024).filter fun g => ((Rom.dpdAt g).extractLsb' 0 12 &&& 0x888) == 0x888).length = 32 := by
  decide +kernel
theorem test_non_canonical_groups :
    ((List.range 1024).filter fun g => nonCanonical (BitVec.ofNat 10 g)) =
      [0x16E, 0x16F, 0x17E, 0x17F, 0x1EE, 0x1EF, 0x1FE, 0x1FF, 0x26E, 0x26F, 0x27E, 0x27F, 0x2EE, 0x2EF, 0x2FE, 0x2FF,
       0x36E, 0x36F, 0x37E, 0x37F, 0x3EE, 0x3EF, 0x3FE, 0x3FF] := by
  decide +kernel

/-! ### The host's functions (95_test_vectors.md section 1.5) -/

theorem test_decode_slow : decodeSlow ⟨[0x12], 0x3D⟩ 2 = .number ⟨-123, -2⟩ := by decide
theorem test_decode_slow_bad_digit : decodeSlow ⟨[0x1A], 0x3C⟩ 0 = .formatError := by decide
theorem test_encode_slow_even : encodeSlow 12 = [0x01, 0x2C] := by decide
theorem test_encode_slow_zero : encodeSlow 0 = [0x0C] := by decide
theorem test_decode_fast : decodeFast (withStrap true) ⟨[0x12], 0x3D⟩ 2 = some (.word 0xA2300000000000A3) := by decide +kernel
theorem test_encode_fast :
    encodeFast (withStrap true) 0xA2300000000000A3 = some [0, 0, 0, 0, 0, 0, 0x12, 0x3D] := by decide +kernel

theorem test_decode_packed_follows_the_preference :
    decodePackedDecimal (withStrap true) true ⟨[0x12], 0x3D⟩ 2 = .word 0xA2300000000000A3
      ∧ decodePackedDecimal (withStrap true) false ⟨[0x12], 0x3D⟩ 2 = .number ⟨-123, -2⟩ := by decide +kernel
theorem test_encode_packed_follows_the_preference :
    encodePackedDecimal (withStrap true) true (.word 0xA2300000000000A3) = some [0, 0, 0, 0, 0, 0, 0x12, 0x3D]
      ∧ encodePackedDecimal (withStrap true) false (.word 0xA2300000000000A3) = some [0x12, 0x3D] := by decide +kernel

/-- The first lines of the written example P2 of 95_test_vectors.md: a negative zero is built and fixed. -/
theorem test_written_lines :
    (evaluateLines (withStrap true) []
      [⟨0, "ENCBCD", .literal 0, some 396, some 1⟩, ⟨1, "ZFIX", .dest 0, none, none⟩]).map Prod.snd
      = some [(1, 0x2230000000000000), (0, 0xA230000000000000)] := by decide +kernel

/-! ### Witnesses: the hypotheses of the statements are met -/

/-- `StepRunsTheDecodedOperation`, `EveryRequestIsAnswered`, `StatusIsThatOfTheFirstCause`. -/
theorem witness_presented_request :
    (presented true 0x000000000000000000000000A3).requests = 0x000000000000000000000000A3 :: []
      ∧ decode 0x000000000000000000000000A3 = .ok (.dpd2bcd 0x0A3) := ⟨rfl, rfl⟩

/-- `StepKeepsTheTablesLoaded`. -/
theorem witness_step : ∃ t, step (withStrap true) = .next t ∧ (withStrap true).TablesLoaded :=
  ⟨_, rfl, withStrap_loaded true⟩

/-- `EncodeOfDecodeIsTheRequest`. -/
theorem witness_decoded : decode 0x20FFFFFFFE0000000000000000 = .ok (.bias 0xFFFFFFFE) := rfl

/-- `ReservedCodesAreTheTen`: the least and the greatest reserved code, and the codes beside them. -/
theorem witness_reserved_codes :
    decode 0x0A000000000000000000000000 = .error (.reservedOp 0x05)
      ∧ decode 0x3E000000000000000000000000 = .error (.reservedOp 0x1F)
      ∧ decode 0x08000000000000000000000000 = .ok (.pow10 0) ∧ decode 0x34000000000000000000000000 = .ok (.ndig 0) :=
  ⟨rfl, rfl, rfl, rfl⟩

/-- `MalformedRequestsAnswerIllegal`: a request for each clause. -/
theorem witness_malformed :
    opField 0x0A000000000000000000000000 = 0x05
      ∧ readsA (opField 0x00000000000000000000000400) ≤ 10 ∧ (aField 0x00000000000000000000000400).getLsbD 10 = true
      ∧ eField 0x10000000010000000000000000 ≠ 0 ∧ opField 0x10000000010000000000000000 = 0x08
      ∧ sField 0x25000000000000000000000000 ≠ 0 ∧ opField 0x25000000000000000000000000 ≠ 0x11
      ∧ opField 0x08000000000000000000000013 = 0x04 ∧ (aField 0x08000000000000000000000013).toNat = 19 := by decide

/-- `SpecialWordsAreUnsupported`: both special combination fields. -/
theorem witness_special : special 0x7800000000000000 = true ∧ special 0xFC00000000000001 = true := by decide

/-- `TheStrapGatesFiveOperations`: each clause. -/
theorem witness_gated : gated (.uval 0) = true ∧ (withStrap false).hwAvail = false ∧ gated (.xdig 0) = false := by decide

/-- `TheResponsePortCarriesTheResponse`: each status. -/
theorem witness_port :
    (Response.ok 5).port 7 = 5 ∧ (Response.failed .unsupported).port 7 = 0x10000000000000007
      ∧ (Response.failed .invalidEncoding).port 7 = 0x20000000000000007
      ∧ (Response.failed .illegal).port 7 = 0x30000000000000007 := by decide

/-- `ResponsesDependOnTheirRequestOnly` (a): two states with the same tables and strap and other requests behind. -/
theorem witness_same_tables :
    (presented true 0).requests = 0 :: [] ∧ (State.present (presented true 0) 1).requests = 0 :: [1]
      ∧ (presented true 0).romDpd = (State.present (presented true 0) 1).romDpd
      ∧ (presented true 0).romCombo = (State.present (presented true 0) 1).romCombo
      ∧ (presented true 0).romPow10 = (State.present (presented true 0) 1).romPow10
      ∧ (presented true 0).hwAvail = (State.present (presented true 0) 1).hwAvail := ⟨rfl, rfl, rfl, rfl, rfl, rfl⟩

/-- `AFailureLeavesNothingBehind`. -/
theorem witness_failure :
    ∃ t, step (presented true 0x0A000000000000000000000000) = .next t ∧ t.response = some (.failed .illegal) :=
  ⟨_, step_rejected _ _ [] (.reservedOp 0x05) rfl rfl, rfl⟩

/-- `OpenComboEntriesAreNeverRead`: the same tables but for entries 30 and 31. -/
theorem witness_open_entries (v : BitVec 8) :
    ∀ c : BitVec 5, c.toNat < 30 →
      State.comboEntry { withStrap true with romCombo := (Rom.combo.set 30 v).set 31 v } c
        = (withStrap true).comboEntry c := by
  intro c hc
  show ((Rom.combo.set 30 v).set 31 v)[c.toNat] = Rom.combo[c.toNat]
  rw [Vector.getElem_set_ne _ _ (by omega), Vector.getElem_set_ne _ _ (by omega)]

/-- `ALaterResetIsUnobservable`. -/
theorem witness_reset : (presented true 0).TablesLoaded ∧ (presented true 0).requests = 0 :: [] :=
  ⟨⟨rfl, fun _ => rfl, rfl⟩, rfl⟩

/-- The table operations: `TablesLoaded` with valid and invalid digits, and both sides of the bounds 30 and 19. -/
theorem witness_table_operands :
    validDigits (0x999 : Digits3) 3 = true ∧ validDigits (0x99A : Digits3) 3 = false
      ∧ (29 : BitVec 5).toNat < 30 ∧ 30 ≤ (30 : BitVec 5).toNat ∧ (18 : BitVec 5).toNat < 19 ∧ 19 ≤ (19 : BitVec 5).toNat
      ∧ (2 : BitVec 2) ≠ 3 ∧ (9 : BitVec 4).toNat ≤ 9 ∧ 9 < (10 : BitVec 4).toNat := by decide

/-- The decoder's statements: a loaded state, hardware available, and non-special words: one that tests zero, one that does
not of each sign, and one of the anomaly (`DecodedDigits…`, `Coefficient…`, `Xdig…`, `Uval…`, `Sigd…`, `Signum…`, `Bexp…`,
`TheBlockReports…`, `BiasAdds…`, `DecodeThenEncode…`). -/
theorem witness_words :
    (withStrap true).TablesLoaded ∧ (withStrap true).hwAvail = true
      ∧ (special 0x77FCFF3FCFF3FCFF = false ∧ isZero 0x77FCFF3FCFF3FCFF = false ∧ sign 0x77FCFF3FCFF3FCFF = 0
          ∧ readsAsZeroAnomaly 0x77FCFF3FCFF3FCFF = false)
      ∧ (special 0xA2300000000000A3 = false ∧ isZero 0xA2300000000000A3 = false ∧ sign 0xA2300000000000A3 = 1)
      ∧ (special 0xC3FC000000000000 = false ∧ isZero 0xC3FC000000000000 = true ∧ readsAsZeroAnomaly 0xC3FC000000000000 = false)
      ∧ (special 0x6238000000000000 = false ∧ readsAsZeroAnomaly 0x6238000000000000 = true) :=
  ⟨withStrap_loaded true, rfl, by decide, by decide, by decide, by decide⟩

/-- `SigdCountsTheSignificantDigits`: digits that are zero and digits that are not. -/
theorem witness_digits :
    (withStrap true).digits 0xA238000000000000 = 0 ∧ (withStrap true).digits 0x2238000000000001 ≠ 0 := by decide +kernel

/-- `ZeroConstIsUnobservable`: another zero word. -/
theorem witness_zero_word : cc 0xC3FC000000000000 = 0 ∧ zsub 0xC3FC000000000000 = 0 := by decide

/-- `BiasAddsWithoutWrappingAndUndoesUexp`: both ends of the window and the values outside it. -/
theorem witness_bias :
    (0xFFFFFE72 : BitVec 32).toInt + 398 = 0 ∧ (369 : BitVec 32).toInt + 398 = 767
      ∧ (0xFFFFFE71 : BitVec 32).toInt + 398 < 0 ∧ 767 < (370 : BitVec 32).toInt + 398 := by decide

/-- The constructors: exponents at both ends and outside, digits valid and not, magnitudes of 16 and of 17 digits. -/
theorem witness_constructors :
    (0 ≤ (0 : BitVec 32).toInt ∧ (767 : BitVec 32).toInt ≤ 767 ∧ (0xFFFFFFFF : BitVec 32).toInt < 0
        ∧ 767 < (768 : BitVec 32).toInt)
      ∧ validDigits (0x9999999999999999 : Word) 16 = true ∧ validDigits (0xA000000000000000 : Word) 16 = false
      ∧ validDigits ((0x999999999999999D : Word).extractLsb' 4 60) 15 = true
      ∧ validDigits ((0x0000000000001A3C : Word).extractLsb' 4 60) 15 = false
      ∧ (9999999999999999 : Word).toInt.natAbs ≤ 9999999999999999
      ∧ 9999999999999999 < (0xFFDC790D903F0000 : Word).toInt.natAbs := by decide

/-- `EncodeThenDecodeGivesTheParts`, `UvalOfEnclongIsTheMagnitude`: the anomalous coefficient at the exponents 255 and 256,
between which its reading changes. -/
theorem witness_anomalous_coefficient :
    (withStrap true).TablesLoaded ∧ (withStrap true).hwAvail = true
      ∧ validDigits (0x8000000000000000 : Word) 16 = true ∧ (8000000000000000 : Word).toInt.natAbs = 8000000000000000
      ∧ ((0 ≤ (255 : BitVec 32).toInt ∧ (255 : BitVec 32).toInt ≤ 767) ∧ (255 : BitVec 32).toInt < 256)
      ∧ ((0 ≤ (256 : BitVec 32).toInt ∧ (256 : BitVec 32).toInt ≤ 767) ∧ ¬ (256 : BitVec 32).toInt < 256) :=
  ⟨withStrap_loaded true, rfl, by decide, by decide, by decide, by decide⟩

/-- `W2pdPacksFifteenDigits`: a zero, a word of 15 digits and a word with a 16th digit. -/
theorem witness_w2pd :
    isZero 0xA238000000000000 = true ∧ (isZero 0x8000FF3FCFF3FCFF = false ∧ fieldLead (cf 0x8000FF3FCFF3FCFF) = 0)
      ∧ (isZero 0x2638000000000000 = false ∧ fieldLead (cf 0x2638000000000000) ≠ 0) := by decide

/-- `ConstructorsBuildCanonicalWords`. -/
theorem witness_constructed :
    ∃ t, exec (.enclong 398 1) (withStrap true) = .next t ∧ t.response = some (.ok 0x2238000000000001) :=
  ⟨_, rfl, by decide +kernel⟩

/-- `UnpackingPackedBytesPadsThem`: no byte and eight bytes. -/
theorem witness_bytes : ([] : List Byte).length ≤ 8 ∧ (List.replicate 8 (0x99 : Byte)).length ≤ 8 := by decide

/-- `FastAndSlowDecodingAgree`: both ends of the admissible window, and a bad digit. -/
theorem witness_fast_admissible :
    fastAdmissible (withStrap true) ⟨[0x12], 0x3D⟩ 398 = true ∧ fastAdmissible (withStrap true) ⟨[0x12], 0x3D⟩ (-368) = true
      ∧ fastAdmissible (withStrap true) ⟨[0x1A], 0x3C⟩ 0 = true := by decide

/-- `FastEncodingReturnsThePaddedBytes`. -/
theorem witness_fast_word :
    (withStrap true).TablesLoaded
      ∧ decodeFast (withStrap true) ⟨[0x12], 0x3D⟩ 2 = some (.word 0xA2300000000000A3) :=
  ⟨withStrap_loaded true, test_decode_fast⟩

/-- `AWrittenLineDefinesItsDestOnSuccessOnly`: a line that succeeds and a line that fails. -/
theorem witness_written_line :
    (evaluateLine (withStrap true) [] ⟨0, "RMMAP", .literal 6, none, none⟩).map Prod.snd = some [(0, 0)]
      ∧ (evaluateLine (withStrap true) [] ⟨0, "POW10", .literal 19, none, none⟩).map Prod.snd = some [] := by
  decide +kernel

end Sys2Proof.Tests
end

section
/-! What each operation answers, as a function of the state and the instruction, and which parts of the state that answer
depends on (10_state.md R27, 20_memory.md R44, R46). -/

namespace Sys2Proof.Machine

/-- The response of an operation; `exec` puts it on the response port (`exec_eq_answered`). -/
def responseTo (s : State) : Instr → Response
  | .dpd2bcd g => ret (s.dpdEntry g)
  | .bcd2dpd d => bcd2dpdResponse s d
  | .combo c => comboResponse s c
  | .comboenc digit exphi => comboencResponse digit exphi
  | .pow10 i => pow10Response s i
  | .iszero w => ret (BitVec.ofBool (isZero w))
  | .wsign w => ret (sign w)
  | .bexp w => bexpResponse s w
  | .uexp w => uexpResponse s w
  | .xdig w => xdigResponse s w
  | .uval w => uvalResponse s w
  | .sigd w => sigdResponse s w
  | .signum w => signumResponse s w
  | .bias q => biasResponse q
  | .encbcd sg x b => encbcdResponse s sg x b
  | .enclong x n => enclongResponse s x n
  | .encpd x p => encpdResponse s x p
  | .w2pd w => w2pdResponse s w
  | .zfix w => ret (zfix w)
  | .pdsign n4 => ret (BitVec.ofBool (negativeCode n4))
  | .rmmap m => ret (rmmap m)
  | .ndig n => ret (BitVec.ofNat 5 (decimalDigits s n.toInt.natAbs))

/-- Executing an operation puts its response on the port and changes nothing else (40_tables.md R105). -/
theorem exec_eq_answered (s : State) (i : Instr) : exec i s = .next (s.answered (responseTo s i)) := by
  cases i <;> rfl

/-! ### The gate (R27) -/

/-- Without the hardware every gated operation fails before it looks at an operand. -/
theorem responseTo_of_gated {s : State} {i : Instr} (hg : gated i = true) (hw : s.hwAvail = false) :
    responseTo s i = .failed .unsupported := by
  cases i with
  | uval w => simp [responseTo, uvalResponse, hw]
  | encbcd sg x b => simp [responseTo, encbcdResponse, hw]
  | enclong x n => simp [responseTo, enclongResponse, hw]
  | encpd x p => simp [responseTo, encpdResponse, hw]
  | w2pd w => simp [responseTo, w2pdResponse, hw]
  | _ => cases hg

/-! ### What an operation reads -/

theorem cf_lt_of_not_special {w : Word} (h : special w = false) : (cf w).toNat < 30 := by
  simpa [special] using h

/-- The two states hold the same tables, up to the two entries of `ROM_COMBO` that no operation reads (R25). -/
structure State.SameTables (s t : State) : Prop where
  dpd : t.romDpd = s.romDpd
  combo : ∀ c : BitVec 5, c.toNat < 30 → t.comboEntry c = s.comboEntry c
  pow10 : t.romPow10 = s.romPow10

namespace State.SameTables

variable {s t : State} (h : s.SameTables t)
include h

theorem dpdEntry (g : Group) : t.dpdEntry g = s.dpdEntry g := by
  simp only [State.dpdEntry, h.dpd]

theorem dpdDigits (g : Group) : t.dpdDigits g = s.dpdDigits g := by
  simp only [State.dpdDigits, h.dpdEntry]

theorem bcd2dpd (d : Digits3) : t.bcd2dpd d = s.bcd2dpd d := by
  simp only [State.bcd2dpd, h.dpd]

theorem pow10Entry? (i : Nat) : t.pow10Entry? i = s.pow10Entry? i := by
  simp only [State.pow10Entry?, h.pow10]

theorem bexp {w : Word} (hs : special w = false) : t.bexp w = s.bexp w := by
  simp only [State.bexp, State.exphi, h.combo _ (cf_lt_of_not_special hs)]

theorem lead {w : Word} (hs : special w = false) : t.lead w = s.lead w := by
  simp only [State.lead, h.combo _ (cf_lt_of_not_special hs)]

theorem digits {w : Word} (hs : special w = false) : t.digits w = s.digits w := by
  simp only [State.digits, h.lead hs, h.dpdDigits]

theorem encodeWord (sg : BitVec 1) (x : BitVec 10) (b : Word) : t.encodeWord sg x b = s.encodeWord sg x b := by
  simp only [State.encodeWord, h.bcd2dpd]

theorem digitSearch (m fuel k : Nat) : digitSearch t m fuel k = digitSearch s m fuel k := by
  induction fuel generalizing k with
  | zero => rfl
  | succ fuel ih => simp only [Machine.digitSearch, h.pow10Entry?, ih]

/-- The same operation gets the same response from the same tables; only a gated one needs the same strap too. -/
theorem responseTo_eq (i : Instr) (hw : gated i = true → t.hwAvail = s.hwAvail) : responseTo t i = responseTo s i := by
  cases i with
  | dpd2bcd g => simp only [responseTo, h.dpdEntry]
  | bcd2dpd d => simp only [responseTo, bcd2dpdResponse, h.bcd2dpd]
  | combo c =>
    by_cases hc : c.toNat < 30
    · simp only [responseTo, comboResponse, h.combo c hc]
    · simp [responseTo, comboResponse, Nat.not_lt.mp hc]
  | pow10 i => simp only [responseTo, pow10Response, h.pow10Entry?]
  | bexp w => cases hs : special w <;> simp [responseTo, bexpResponse, hs, h.bexp]
  | uexp w => cases hs : special w <;> simp [responseTo, uexpResponse, hs, h.bexp]
  | xdig w => cases hs : special w <;> simp [responseTo, xdigResponse, hs, h.digits]
  | uval w => cases hs : special w <;> simp [responseTo, uvalResponse, hw rfl, hs, h.digits]
  | sigd w => cases hs : special w <;> simp [responseTo, sigdResponse, hs, h.digits]
  | signum w => cases hs : special w <;> simp [responseTo, signumResponse, hs, h.digits]
  | encbcd sg x b => simp only [responseTo, encbcdResponse, hw rfl, h.encodeWord]
  | enclong x n => simp only [responseTo, enclongResponse, hw rfl, h.encodeWord]
  | encpd x p => simp only [responseTo, encpdResponse, hw rfl, h.encodeWord]
  | w2pd w => cases hs : special w <;> simp [responseTo, w2pdResponse, hw rfl, hs, h.digits]
  | ndig n => simp only [responseTo, decimalDigits, h.digitSearch]
  | _ => rfl

end State.SameTables

/-- Changing the strap changes no table. -/
theorem State.sameTables_setStrap (s : State) (hw : Bool) : s.SameTables { s with hwAvail := hw } :=
  ⟨rfl, fun _ _ => rfl, rfl⟩

/-- Settles O15: every operation only answers, a gated one fails without hardware, and an ungated one answers from the
tables alone. -/
theorem theStrapGatesFiveOperations : Obligations.TheStrapGatesFiveOperations := by
  intro s i
  refine ⟨fun t ht => ?_, fun hg hw => ?_, fun hg hw => ⟨responseTo s i, exec_eq_answered s i, ?_⟩⟩
  · obtain rfl : s.answered (responseTo s i) = t := by simpa [exec_eq_answered] using ht
    rfl
  · rw [exec_eq_answered, responseTo_of_gated hg hw]
  · rw [exec_eq_answered, (s.sameTables_setStrap hw).responseTo_eq i (by simp [hg])]

end Sys2Proof.Machine
end

section
/-! What the loaded tables hold, each entry by the rule that describes it (10_state.md R24 to R26, R29, R31; 30_encoding.md
R62). -/

namespace Sys2Proof.Machine

/-- All 1024 printed entries are the digits of the eight cases of R31. -/
theorem Rom.dpdAt_eq_dpdByRule : ∀ g : Group, Rom.dpdAt g.toNat = (dpdByRule g).setWidth 16 := by
  decide +kernel

/-- The 30 printed entries hold the leading digit and the exponent bits that the combination field names. -/
theorem Rom.combo_toNat (c : BitVec 5) (hc : c.toNat < 30) :
    Rom.combo[c.toNat].toNat = 4 * fieldLead c + fieldExphi c := by
  revert c
  decide +kernel

theorem Rom.pow10_toNat : ∀ i : Fin 19, Rom.pow10[i.val].toNat = 10 ^ i.val := by
  decide

theorem State.TablesLoaded.dpdEntry_eq_dpdByRule {s : State} (h : s.TablesLoaded) (g : Group) :
    s.dpdEntry g = (dpdByRule g).setWidth 16 := by
  rw [h.dpdEntry, Rom.dpdAt_eq_dpdByRule]

theorem State.TablesLoaded.comboEntry_toNat {s : State} (h : s.TablesLoaded) (c : BitVec 5) (hc : c.toNat < 30) :
    (s.comboEntry c).toNat = 4 * fieldLead c + fieldExphi c := by
  rw [h.comboEntry c hc, Rom.combo_toNat c hc]

theorem State.TablesLoaded.romPow10_toNat {s : State} (h : s.TablesLoaded) (i : Fin 19) :
    s.romPow10[i.val].toNat = 10 ^ i.val := by
  simp only [h.pow10, Rom.pow10_toNat]

theorem State.reset_tablesLoaded : State.reset.TablesLoaded := ⟨rfl, fun _ => rfl, rfl⟩

/-- Settles O1: reset loads the tables, and a loaded table holds what its rule says. -/
theorem resetTablesHoldTheirValues : Obligations.ResetTablesHoldTheirValues :=
  ⟨State.reset_tablesLoaded.dpdEntry_eq_dpdByRule, State.reset_tablesLoaded.comboEntry_toNat,
    State.reset_tablesLoaded.romPow10_toNat, rfl⟩

end Sys2Proof.Machine
end

section
/-! What a step does with the oldest request, and what the response to a request depends on (20_memory.md R46). -/

namespace Sys2Proof.Machine

/-- The response to a request: a malformed one gets `ILLEGAL`, any other the response of its operation; `step` puts it on
the response port (`step_eq_answered`). -/
def responseToRequest (s : State) (q : Request) : Response :=
  match decode q with
  | .error _ => .failed .illegal
  | .ok i => responseTo s i

/-- The same request gets the same response from the same tables and the same strap. -/
theorem State.SameTables.responseToRequest_eq {s t : State} (h : s.SameTables t) (hw : t.hwAvail = s.hwAvail)
    (q : Request) : responseToRequest t q = responseToRequest s q := by
  simp only [responseToRequest]
  cases decode q with
  | error e => rfl
  | ok i => exact h.responseTo_eq i fun _ => hw

/-- The response to a request does not depend on the ports. -/
theorem responseToRequest_ports (s : State) (rq : List Request) (rs : Option Response) (q : Request) :
    responseToRequest { s with requests := rq, response := rs } q = responseToRequest s q :=
  have htables : s.SameTables { s with requests := rq, response := rs } := ⟨rfl, fun _ _ => rfl, rfl⟩
  htables.responseToRequest_eq rfl q

/-- A step takes the oldest request off the request port, answers it, and changes nothing else. -/
theorem step_eq_answered {s : State} {q : Request} {rest : List Request} (h : s.requests = q :: rest) :
    step s = .next (State.answered { s with requests := rest } (responseToRequest s q)) := by
  rw [← responseToRequest_ports s rest s.response q]
  simp only [step, takeRequest_cons s q rest h, responseToRequest]
  cases decode q with
  | error e => rfl
  | ok i => exact exec_eq_answered _ i

/-- A step in a state that differs from `s` in its ports only: the response is the one `s` gives. -/
theorem step_ports_eq_answered (s : State) (q : Request) (rest : List Request) (rs : Option Response) :
    step { s with requests := q :: rest, response := rs }
      = .next (State.answered { s with requests := rest } (responseToRequest s q)) := by
  rw [step_eq_answered rfl, responseToRequest_ports]
  rfl

/-- Settles O17: a step answers `responseToRequest`, which reads the tables and the strap and neither port, so what was
answered before and what still waits make no difference. -/
theorem responsesDependOnTheirRequestOnly : Obligations.ResponsesDependOnTheirRequestOnly := by
  refine ⟨fun s t q restS restT hs ht hdpd hcombo hpow10 hstrap => ?_, fun s q₁ q₂ => ?_, fun s q => ?_⟩
  · have htables : t.SameTables s := ⟨hdpd, fun c _ => by simp only [State.comboEntry, hcombo], hpow10⟩
    refine ⟨responseToRequest s q, step_eq_answered hs, ?_⟩
    rw [step_eq_answered ht, htables.responseToRequest_eq hstrap]
  · exact ⟨responseToRequest s q₁, responseToRequest s q₂,
      step_ports_eq_answered s q₁ [q₂] _, step_ports_eq_answered s q₂ [] _,
      step_ports_eq_answered s q₂ [q₁] _, step_ports_eq_answered s q₁ [] _⟩
  · exact ⟨responseToRequest s q, step_ports_eq_answered s q [q] _, step_ports_eq_answered s q [] _⟩

end Sys2Proof.Machine
end

section
/-! Which requests name no operation (30_encoding.md R72, R74). -/

namespace Sys2Proof

/-- The ten codes that the operation map leaves out (R74). -/
def reservedCodes : List (BitVec 5) :=
  [0x05, 0x06, 0x07, 0x16, 0x17, 0x1B, 0x1C, 0x1D, 0x1E, 0x1F]

/-- The reserved codes are the three gaps in the operation map and what lies above its last code. -/
theorem mem_reservedCodes : ∀ {op : BitVec 5}, op ∈ reservedCodes ↔
    (0x05 ≤ op.toNat ∧ op.toNat ≤ 0x07) ∨ (0x16 ≤ op.toNat ∧ op.toNat ≤ 0x17) ∨ 0x1B ≤ op.toNat := by
  decide

/-- A request names no operation exactly when its code is reserved: no operand is consulted. -/
theorem operation_eq_none_iff (q : Request) : operation q = none ↔ opField q ∈ reservedCodes := by
  have hlt : (opField q).toNat < 32 := (opField q).isLt
  rw [mem_reservedCodes, operation]
  split
  case h_23 =>
    simp only [imp_false, true_iff] at *
    omega
  all_goals exact iff_of_false (Option.some_ne_none _) (by omega)

/-- The decoder reports a reserved code exactly when the request names no operation; an operand bit that is not read gives
the other rejection (60_exceptions.md R202 steps 1 and 2). -/
theorem decode_eq_reservedOp_iff (q : Request) :
    decode q = .error (.reservedOp (opField q)) ↔ operation q = none := by
  cases hop : operation q with
  | none => simp [decode, hop]
  | some i => cases hclear : unreadClear q <;> simp [decode, hop, hclear]

/-- Settles O10: the decoder reports a reserved code when the operation map has no row for it, and the step of a rejected
request answers `ILLEGAL`. -/
theorem reservedCodesAreTheTen : Obligations.ReservedCodesAreTheTen := fun s q rest h =>
  ⟨(decode_eq_reservedOp_iff q).trans (operation_eq_none_iff q), Machine.step_rejected s q rest _ h⟩

end Sys2Proof
end

section
/-! The digits of a group by the eight cases of 10_state.md R31: each case puts together three digits, a small one of
three bits or a large one of one bit. -/

namespace Sys2Proof.Machine

/-! ### Three digits side by side -/

theorem nibble2_append (a b c : BitVec 4) : nibble (a ++ b ++ c) 2 = a := by
  rw [nibble, BitVec.extractLsb'_append_eq_of_le (by omega), BitVec.extractLsb'_append_eq_of_le (by omega)]
  exact BitVec.extractLsb'_eq_self

theorem nibble1_append (a b c : BitVec 4) : nibble (a ++ b ++ c) 1 = b := by
  rw [nibble, BitVec.extractLsb'_append_eq_of_le (by omega), BitVec.extractLsb'_append_eq_of_add_le (by omega)]
  exact BitVec.extractLsb'_eq_self

theorem nibble0_append (a b c : BitVec 4) : nibble (a ++ b ++ c) 0 = c := by
  rw [nibble, BitVec.extractLsb'_append_eq_of_add_le (by omega)]
  exact BitVec.extractLsb'_eq_self

theorem validDigits_append {a b c : BitVec 4} (ha : a.toNat ≤ 9) (hb : b.toNat ≤ 9) (hc : c.toNat ≤ 9) :
    validDigits (a ++ b ++ c) 3 = true := by
  simp only [validDigits, List.all_eq_true, List.mem_range, decide_eq_true_eq]
  intro k hk
  match k, hk with
  | 0, _ => rwa [nibble0_append]
  | 1, _ => rwa [nibble1_append]
  | 2, _ => rwa [nibble2_append]

theorem digits_eq_zero_of_append_eq_zero {a b c : BitVec 4} (h : a ++ b ++ c = 0#12) : a = 0 ∧ b = 0 ∧ c = 0 := by
  have hzero : ∀ k < 3, nibble (a ++ b ++ c) k = 0 := by
    rw [h]
    decide
  exact ⟨nibble2_append a b c ▸ hzero 2 (by decide), nibble1_append a b c ▸ hzero 1 (by decide),
    nibble0_append a b c ▸ hzero 0 (by decide)⟩

/-! ### Small and large digits -/

/-- A small digit is at most 7. -/
theorem smallDigit_le_nine : ∀ a b c : BitVec 1, (0#1 ++ a ++ b ++ c).toNat ≤ 9 := by
  decide

/-- A large digit is 8 or 9. -/
theorem largeDigit_le_nine : ∀ a : BitVec 1, (4#3 ++ a).toNat ≤ 9 := by
  decide

theorem bits_eq_zero_of_smallDigit_eq_zero :
    ∀ {a b c : BitVec 1}, 0#1 ++ a ++ b ++ c = 0#4 → a = 0 ∧ b = 0 ∧ c = 0 := by
  decide

theorem largeDigit_ne_zero : ∀ a : BitVec 1, 4#3 ++ a ≠ 0#4 := by
  decide

/-! ### The eight cases -/

theorem validDigits_dpdByRule (g : Group) : validDigits (dpdByRule g) 3 = true := by
  unfold dpdByRule
  extract_lets p q r s t u y small large
  have hs : ∀ a b c, (small a b c).toNat ≤ 9 := smallDigit_le_nine
  have hl : ∀ a, (large a).toNat ≤ 9 := largeDigit_le_nine
  clear_value small large
  split
  · exact validDigits_append (hs ..) (hs ..) (hs ..)
  split
  · exact validDigits_append (hs ..) (hs ..) (hl ..)
  split
  · exact validDigits_append (hs ..) (hl ..) (hs ..)
  split
  · exact validDigits_append (hl ..) (hs ..) (hs ..)
  split
  · exact validDigits_append (hl ..) (hl ..) (hs ..)
  split
  · exact validDigits_append (hl ..) (hs ..) (hl ..)
  split
  · exact validDigits_append (hs ..) (hl ..) (hl ..)
  exact validDigits_append (hl ..) (hl ..) (hl ..)

theorem eq_zero_of_bits_eq_zero {g : Group} (h : ∀ i < 10, bit g i = 0) : g = 0 := by
  apply BitVec.eq_of_getLsbD_eq
  intro i hi
  simpa [bit] using congrArg (·.getLsbD 0) (h i hi)

/-- In the case without a large digit the bits of the three small digits and bit 3 are all ten bits of the group; the other
seven cases have a large digit, which is not zero. -/
theorem eq_zero_of_dpdByRule_eq_zero {g : Group} (h : dpdByRule g = 0) : g = 0 := by
  unfold dpdByRule at h
  extract_lets p q r s t u y small large at h
  have hsmall : ∀ {a b c}, small a b c = 0 → a = 0 ∧ b = 0 ∧ c = 0 := bits_eq_zero_of_smallDigit_eq_zero
  have hlarge : ∀ a, large a ≠ 0 := largeDigit_ne_zero
  clear_value small large
  split at h
  · obtain ⟨hhundreds, htens, hunits⟩ := digits_eq_zero_of_append_eq_zero h
    obtain ⟨hp, hq, hr⟩ := hsmall hhundreds
    obtain ⟨hs, ht, hu⟩ := hsmall htens
    obtain ⟨hv, hw, hy⟩ := hsmall hunits
    apply eq_zero_of_bits_eq_zero
    intro i hi
    match i, hi with
    | 0, _ | 1, _ | 2, _ | 3, _ | 4, _ | 5, _ | 6, _ | 7, _ | 8, _ | 9, _ => assumption
  exfalso
  repeat' split at h
  all_goals obtain ⟨hhundreds, htens, hunits⟩ := digits_eq_zero_of_append_eq_zero h
  · exact hlarge _ hunits
  · exact hlarge _ htens
  · exact hlarge _ hhundreds
  · exact hlarge _ hhundreds
  · exact hlarge _ hhundreds
  · exact hlarge _ htens
  · exact hlarge _ hhundreds

theorem dpdByRule_zero : dpdByRule 0 = 0 := by
  decide

/-- Settles O21: the loaded entry is the digits of R31, and these are valid and tell group 0 from the others. -/
theorem dpd2bcdAnswersTheDigits : Obligations.Dpd2bcdAnswersTheDigits := by
  intro s g h
  refine ⟨?_, validDigits_dpdByRule g, eq_zero_of_dpdByRule_eq_zero, fun hg => hg ▸ dpdByRule_zero⟩
  rw [exec_eq_answered, responseTo, h.dpdEntry_eq_dpdByRule, ret_eq_ok, BitVec.setWidth_setWidth (by decide)]

end Sys2Proof.Machine
end

section
/-! The combination field (30_encoding.md R62) and the operations `COMBO` and `COMBOENC` (40_tables.md R102, R103). -/

namespace Sys2Proof.Machine

theorem State.TablesLoaded.exec_combo {s : State} (h : s.TablesLoaded) {c : BitVec 5} (hc : c.toNat < 30) :
    exec (.combo c) s = .next (s.answered (.ok (BitVec.ofNat 64 (4 * fieldLead c + fieldExphi c)))) := by
  rw [exec_eq_answered, responseTo, comboResponse, if_neg (by omega), ret_eq_ok, ← h.comboEntry_toNat c hc,
    BitVec.ofNat_toNat]

theorem exec_combo_of_le (s : State) {c : BitVec 5} (hc : 30 ≤ c.toNat) :
    exec (.combo c) s = .next (s.answered (.failed .unsupported)) := by
  rw [exec_eq_answered, responseTo, comboResponse, if_pos hc, raise_eq_failed]

/-- Settles O24: below 30 the loaded entry is answered, from 30 on none is read. -/
theorem comboAnswersDigitAndExponentBits : Obligations.ComboAnswersDigitAndExponentBits :=
  fun s _ h => ⟨h.exec_combo, exec_combo_of_le s⟩

/-! ### The two forms of a combination field -/

/-- Exponent bits other than 11 stand at the top of the field, before the three bits of a digit up to 7. -/
theorem fields_of_small {e : BitVec 2} (he : e ≠ 3) (d : BitVec 3) :
    fieldLead (e ++ d) = d.toNat ∧ fieldExphi (e ++ d) = e.toNat ∧ (e ++ d).toNat < 30 := by
  revert e d
  decide

/-- After a top of 11 stand the exponent bits and the last bit of a digit 8 or 9. -/
theorem fields_of_large {e : BitVec 2} (he : e ≠ 3) (d : BitVec 1) :
    fieldLead (3#2 ++ e ++ d) = 8 + d.toNat ∧ fieldExphi (3#2 ++ e ++ d) = e.toNat ∧ (3#2 ++ e ++ d).toNat < 30 := by
  revert e d
  decide

/-- `COMBOENC` builds a field below 30 that names its two operands. -/
theorem fields_comboenc {digit : BitVec 4} {exphi : BitVec 2} (he : exphi ≠ 3) (hd : digit.toNat ≤ 9) :
    fieldLead (comboenc digit exphi) = digit.toNat ∧ fieldExphi (comboenc digit exphi) = exphi.toNat
      ∧ (comboenc digit exphi).toNat < 30 := by
  by_cases hsmall : digit.toNat ≤ 7
  · have hdigit : (digit.extractLsb' 0 3).toNat = digit.toNat := by
      rw [BitVec.extractLsb'_toNat, Nat.shiftRight_zero]
      omega
    rw [comboenc, if_pos hsmall, ← hdigit]
    exact fields_of_small he _
  · have hdigit : 8 + (digit.extractLsb' 0 1).toNat = digit.toNat := by
      rw [BitVec.extractLsb'_toNat, Nat.shiftRight_zero]
      omega
    rw [comboenc, if_neg hsmall, ← hdigit]
    exact fields_of_large he _

/-- Every field below 30 is built by `COMBOENC`, from operands that pass its two checks. -/
theorem exists_comboenc_eq : ∀ {c : BitVec 5}, c.toNat < 30 →
    ∃ (digit : BitVec 4) (exphi : BitVec 2), exphi ≠ 3 ∧ digit.toNat ≤ 9 ∧ comboenc digit exphi = c := by
  decide

/-! ### Reading back what was built -/

/-- `COMBO` answers the two operands of the field that `COMBOENC` built. -/
theorem State.TablesLoaded.exec_combo_comboenc {s : State} (h : s.TablesLoaded) {digit : BitVec 4} {exphi : BitVec 2}
    (he : exphi ≠ 3) (hd : digit.toNat ≤ 9) :
    exec (.combo (comboenc digit exphi)) s = .next (s.answered (.ok ((digit ++ exphi).setWidth 64))) := by
  obtain ⟨hlead, hexphi, hlt⟩ := fields_comboenc he hd
  have hpair : (digit ++ exphi).toNat = 4 * digit.toNat + exphi.toNat := by
    rw [BitVec.toNat_append, ← Nat.shiftLeft_add_eq_or_of_lt exphi.isLt, Nat.shiftLeft_eq, Nat.mul_comm]
  rw [h.exec_combo hlt, hlead, hexphi, ← hpair, BitVec.ofNat_toNat]

theorem exec_comboenc (s : State) {digit : BitVec 4} {exphi : BitVec 2} (he : exphi ≠ 3) (hd : digit.toNat ≤ 9) :
    exec (.comboenc digit exphi) s = .next (s.answered (.ok ((comboenc digit exphi).setWidth 64))) := by
  rw [exec_eq_answered, responseTo, comboencResponse, if_neg (by simpa using he), if_neg (by omega), ret_eq_ok]

/-- The exponent check does not look at the digit. -/
theorem exec_comboenc_exphi (s : State) (digit : BitVec 4) :
    exec (.comboenc digit 3) s = .next (s.answered (.failed .unsupported)) := by
  rw [exec_eq_answered, responseTo, comboencResponse, if_pos (by decide), raise_eq_failed]

theorem exec_comboenc_digit (s : State) {digit : BitVec 4} {exphi : BitVec 2} (he : exphi ≠ 3) (hd : 9 < digit.toNat) :
    exec (.comboenc digit exphi) s = .next (s.answered (.failed .invalidEncoding)) := by
  rw [exec_eq_answered, responseTo, comboencResponse, if_neg (by simpa using he), if_pos hd, raise_eq_failed]

/-- Settles O25: every field below 30 is one that `COMBOENC` builds, and `COMBO` reads back what was built. -/
theorem comboencInvertsCombo : Obligations.ComboencInvertsCombo := by
  intro s h
  refine ⟨fun digit exphi he hd => ?_, fun c hc => ?_, exec_comboenc_exphi s, fun _ _ => exec_comboenc_digit s⟩
  · obtain ⟨-, -, hlt⟩ := fields_comboenc he hd
    exact ⟨comboenc digit exphi, hlt, exec_comboenc s he hd, h.exec_combo_comboenc he hd⟩
  · obtain ⟨digit, exphi, he, hd, rfl⟩ := exists_comboenc_eq hc
    exact ⟨digit, exphi, h.exec_combo_comboenc he hd, exec_comboenc s he hd⟩

end Sys2Proof.Machine
end

section
/-! `POW10` (40_tables.md R104). -/

namespace Sys2Proof.Machine

theorem State.TablesLoaded.pow10Entry?_eq_some {s : State} (h : s.TablesLoaded) {i : Nat} (hi : i < 19) :
    s.pow10Entry? i = some (BitVec.ofNat 64 (10 ^ i)) := by
  rw [← Rom.pow10_toNat ⟨i, hi⟩, BitVec.ofNat_toNat, BitVec.setWidth_eq, h.pow10Entry?, Vector.getElem?_eq_getElem hi]

theorem State.TablesLoaded.exec_pow10 {s : State} (h : s.TablesLoaded) {i : BitVec 5} (hi : i.toNat < 19) :
    exec (.pow10 i) s = .next (s.answered (.ok (BitVec.ofNat 64 (10 ^ i.toNat)))) := by
  simp only [exec_eq_answered, responseTo, pow10Response, h.pow10Entry?_eq_some hi, ret_word]

theorem exec_pow10_of_le (s : State) {i : BitVec 5} (hi : 19 ≤ i.toNat) :
    exec (.pow10 i) s = .next (s.answered (.failed .illegal)) := by
  simp only [exec_eq_answered, responseTo, pow10Response, (pow10Entry?_eq_none s i.toNat).mpr hi, raise_eq_failed]

/-- Settles O26: the 19 loaded entries are the powers, and from 19 on there is no entry, in any state. -/
theorem pow10AnswersThePower : Obligations.Pow10AnswersThePower :=
  fun s _ h => ⟨h.exec_pow10, exec_pow10_of_le s⟩

end Sys2Proof.Machine
end

section
/-! Blocks of a bit vector: nibbles, digits of three nibbles, and what the digits of a stream say of the whole stream
(30_encoding.md R60, R66). -/

namespace Sys2Proof.Machine

/-- A field of a field is a field of the vector. -/
theorem extractLsb'_extractLsb'_of_add_le {n start len i m : Nat} (b : BitVec n) (h : i + m ≤ len) :
    (b.extractLsb' start len).extractLsb' i m = b.extractLsb' (start + i) m := by
  apply BitVec.eq_of_getLsbD_eq
  intro k hk
  have hlt : i + k < len := by omega
  simp [hk, hlt, Nat.add_assoc]

/-- Nibble `3j + i` of a stream is nibble `i` of the three digits of place `j`. -/
theorem nibble_extractLsb' {n i : Nat} (b : BitVec n) (j : Nat) (hi : i < 3) :
    nibble (b.extractLsb' (12 * j) 12) i = nibble b (3 * j + i) := by
  rw [nibble, extractLsb'_extractLsb'_of_add_le b (by omega), nibble]
  congr 1
  omega

theorem validDigits_iff {n m : Nat} (b : BitVec m) : validDigits b n = true ↔ ∀ k < n, (nibble b k).toNat ≤ 9 := by
  simp [validDigits]

/-- A stream is valid when its leading digit is and the three digits of every place are. -/
theorem validDigits_of_blocks {b : Word} (hlead : (b.extractLsb' 60 4).toNat ≤ 9)
    (hblocks : ∀ j < 5, validDigits (b.extractLsb' (12 * j) 12) 3 = true) : validDigits b 16 = true := by
  rw [validDigits_iff]
  intro k hk
  by_cases htop : k = 15
  · exact htop ▸ hlead
  · have hdigit := (validDigits_iff _).mp (hblocks (k / 3) (by omega)) (k % 3) (by omega)
    rwa [nibble_extractLsb' b _ (by omega), Nat.div_add_mod] at hdigit

theorem eq_zero_of_nibbles_eq_zero {b : Word} (h : ∀ k < 16, nibble b k = 0) : b = 0 := by
  apply BitVec.eq_of_getLsbD_eq
  intro i hi
  have hbit := congrArg (·.getLsbD (i % 4)) (h (i / 4) (by omega))
  simpa [nibble, Nat.mod_lt, Nat.div_add_mod] using hbit

/-- The lowest `n` digits, all valid, spell a number of `n` decimal digits. -/
theorem bcdValueLow_lt {b : Word} {n : Nat} (h : ∀ k < n, (nibble b k).toNat ≤ 9) : bcdValueLow b n < 10 ^ n := by
  induction n with
  | zero => exact Nat.one_pos
  | succ n ih =>
    have hlow : bcdValueLow b n < 10 ^ n := ih fun k hk => h k (by omega)
    have htop : (nibble b n).toNat * 10 ^ n ≤ 9 * 10 ^ n := Nat.mul_le_mul_right _ (h n (by omega))
    rw [bcdValueLow, Nat.pow_succ]
    omega

theorem bcdValue_le {b : Word} (h : validDigits b 16 = true) : bcdValue b ≤ 9999999999999999 :=
  Nat.le_of_lt_succ (bcdValueLow_lt ((validDigits_iff b).mp h))

/-! ### Leading zeros (41_word_decode.md R127) -/

theorem leadingZeroNibbles_le (b : Word) (n : Nat) : leadingZeroNibbles b n ≤ n := by
  induction n with
  | zero => exact Nat.le_refl 0
  | succ n ih =>
    rw [leadingZeroNibbles]
    split <;> omega

/-- Above the counted place every nibble is zero. -/
theorem nibble_eq_zero_of_leadingZeroNibbles {b : Word} {n k : Nat} (hle : n - leadingZeroNibbles b n ≤ k) (hlt : k < n) :
    nibble b k = 0 := by
  induction n with
  | zero => omega
  | succ n ih =>
    rw [leadingZeroNibbles] at hle
    split at hle
    next htop =>
      by_cases hk : k = n
      · exact hk ▸ eq_of_beq htop
      · exact ih (by omega) (by omega)
    next => omega

/-- The nibble at the counted place, if there is one, is not zero. -/
theorem nibble_ne_zero_of_leadingZeroNibbles {b : Word} {n : Nat} (h : leadingZeroNibbles b n < n) :
    nibble b (n - leadingZeroNibbles b n - 1) ≠ 0 := by
  induction n with
  | zero => omega
  | succ n ih =>
    rw [leadingZeroNibbles] at h ⊢
    split at h
    next htop =>
      rw [if_pos htop, show n + 1 - (1 + leadingZeroNibbles b n) - 1 = n - leadingZeroNibbles b n - 1 by omega]
      exact ih (by omega)
    next htop =>
      rw [if_neg htop]
      simpa using htop

theorem leadingZeroNibbles_lt_of_ne_zero {b : Word} (h : b ≠ 0) : leadingZeroNibbles b 16 < 16 := by
  refine Nat.lt_of_not_le fun hall => h ?_
  exact eq_zero_of_nibbles_eq_zero fun k hk => nibble_eq_zero_of_leadingZeroNibbles (by omega) hk

theorem significantDigits_eq_of_ne_zero {b : Word} (h : b ≠ 0) :
    significantDigits b = 16 - leadingZeroNibbles b 16 := by
  have hlt := leadingZeroNibbles_lt_of_ne_zero h
  exact if_neg (by omega)

theorem significantDigits_zero : significantDigits 0 = 1 := by
  decide

theorem significantDigits_bounds (b : Word) : 1 ≤ significantDigits b ∧ significantDigits b ≤ 16 := by
  unfold significantDigits
  extract_lets n
  split <;> omega

theorem nibble_eq_zero_of_significantDigits_le {b : Word} {k : Nat} (hle : significantDigits b ≤ k) (hlt : k < 16) :
    nibble b k = 0 := by
  by_cases hb : b = 0
  · subst hb
    exact BitVec.extractLsb'_zero
  · rw [significantDigits_eq_of_ne_zero hb] at hle
    exact nibble_eq_zero_of_leadingZeroNibbles hle hlt

theorem nibble_significantDigits_ne_zero {b : Word} (h : b ≠ 0) : nibble b (significantDigits b - 1) ≠ 0 := by
  rw [significantDigits_eq_of_ne_zero h]
  exact nibble_ne_zero_of_leadingZeroNibbles (leadingZeroNibbles_lt_of_ne_zero h)

end Sys2Proof.Machine
end

section
/-! What the block reads of a word, with the tables loaded: its exponent and its digits by the format (30_encoding.md R62,
R64), and that the digits are all zero for the words that test zero only (41_word_decode.md R129 a). -/

namespace Sys2Proof.Machine

/-! ### The fields of a word that the zero test looks at -/

theorem zsub_eq_extractLsb'_cf (w : Word) : zsub w = (cf w).extractLsb' 0 3 := by
  rw [zsub, cf, extractLsb'_extractLsb'_of_add_le w (by omega)]

theorem cc_eq_groups (w : Word) : cc w = grp w 0 ++ grp w 1 ++ grp w 2 ++ grp w 3 ++ grp w 4 := by
  unfold cc grp
  rw [BitVec.extractLsb'_append_extractLsb'_eq_extractLsb' (by rfl),
    BitVec.extractLsb'_append_extractLsb'_eq_extractLsb' (by rfl),
    BitVec.extractLsb'_append_extractLsb'_eq_extractLsb' (by rfl),
    BitVec.extractLsb'_append_extractLsb'_eq_extractLsb' (by rfl)]

theorem isZero_iff (w : Word) : isZero w = true ↔ w = Rom.zeroConst ∨ (cc w = 0 ∧ zsub w = 0) := by
  simp [isZero, isZeroWith]

theorem zsub_eq_zero_of_fieldLead_eq_zero {w : Word} (h : fieldLead (cf w) = 0) : zsub w = 0 := by
  have hfield : ∀ c : BitVec 5, fieldLead c = 0 → c.extractLsb' 0 3 = 0 := by decide
  rw [zsub_eq_extractLsb'_cf]
  exact hfield _ h

/-- A word whose leading digit and groups are all zero tests zero. -/
theorem isZero_of_fields_eq_zero {w : Word} (hlead : fieldLead (cf w) = 0) (hgrp : ∀ j < 5, grp w (4 - j) = 0) :
    isZero w = true := by
  have hcc : cc w = 0 := by
    rw [cc_eq_groups, hgrp 4 (by decide), hgrp 3 (by decide), hgrp 2 (by decide), hgrp 1 (by decide), hgrp 0 (by decide)]
    decide
  exact (isZero_iff w).mpr (.inr ⟨hcc, zsub_eq_zero_of_fieldLead_eq_zero hlead⟩)

/-! ### Bounds of what a combination field names -/

theorem fieldLead_le_nine : ∀ c : BitVec 5, fieldLead c ≤ 9 := by
  decide

theorem fieldExphi_le_two : ∀ {c : BitVec 5}, c.toNat < 30 → fieldExphi c ≤ 2 := by
  decide

theorem formatBexp_le {w : Word} (hs : special w = false) : formatBexp w ≤ 767 := by
  have hexphi := fieldExphi_le_two (cf_lt_of_not_special hs)
  have hec := (ec w).isLt
  unfold formatBexp
  omega

/-! ### Digits of a word, block by block -/

/-- The three digits of place `j`, counted from the units, are those of the group of that place. -/
theorem block_of_digits (s : State) {w : Word} (hz : isZero w = false) {j : Nat} (hj : j < 5) :
    (s.digits w).extractLsb' (12 * j) 12 = s.dpdDigits (grp w (4 - j)) := by
  match j, hj with
  | 0, _ => exact grp4_of_digits s w hz
  | 1, _ => exact grp3_of_digits s w hz
  | 2, _ => exact grp2_of_digits s w hz
  | 3, _ => exact grp1_of_digits s w hz
  | 4, _ => exact grp0_of_digits s w hz

namespace State.TablesLoaded

variable {s : State} (h : s.TablesLoaded)
include h

theorem dpdDigits (g : Group) : s.dpdDigits g = dpdByRule g := by
  rw [State.dpdDigits, h.dpdEntry_eq_dpdByRule, BitVec.extractLsb'_setWidth_of_le (by decide)]
  exact BitVec.extractLsb'_eq_self

variable {w : Word} (hs : special w = false)
include hs

theorem exphi_toNat : (s.exphi w).toNat = fieldExphi (cf w) := by
  have hle := fieldExphi_le_two (cf_lt_of_not_special hs)
  rw [State.exphi, BitVec.extractLsb'_toNat, h.comboEntry_toNat _ (cf_lt_of_not_special hs), Nat.shiftRight_zero]
  omega

theorem bexp_toNat : (s.bexp w).toNat = formatBexp w := by
  rw [State.bexp, BitVec.toNat_append, ← Nat.shiftLeft_add_eq_or_of_lt (ec w).isLt, Nat.shiftLeft_eq,
    h.exphi_toNat hs, formatBexp]

theorem lead_toNat : (s.lead w).toNat = fieldLead (cf w) := by
  have hlead := fieldLead_le_nine (cf w)
  have hexphi := fieldExphi_le_two (cf_lt_of_not_special hs)
  rw [State.lead, BitVec.extractLsb'_toNat, h.comboEntry_toNat _ (cf_lt_of_not_special hs), Nat.shiftRight_eq_div_pow]
  omega

theorem leadDigit : (s.lead w).extractLsb' 0 4 = BitVec.ofNat 4 (fieldLead (cf w)) := by
  rw [BitVec.extractLsb', h.lead_toNat hs, Nat.shiftRight_zero]

theorem leadDigit_toNat : ((s.lead w).extractLsb' 0 4).toNat = fieldLead (cf w) := by
  have hlead := fieldLead_le_nine (cf w)
  rw [h.leadDigit hs, BitVec.toNat_ofNat]
  omega

theorem digits_eq_of_not_isZero (hz : isZero w = false) :
    s.digits w = BitVec.ofNat 4 (fieldLead (cf w)) ++ dpdByRule (grp w 0) ++ dpdByRule (grp w 1) ++ dpdByRule (grp w 2)
      ++ dpdByRule (grp w 3) ++ dpdByRule (grp w 4) := by
  simp only [digits_of_not_isZero s w hz, h.leadDigit hs, h.dpdDigits]

theorem validDigits_digits : validDigits (s.digits w) 16 = true := by
  cases hz : isZero w with
  | true =>
    rw [digits_of_isZero s w hz]
    decide
  | false =>
    refine validDigits_of_blocks ?_ fun j hj => ?_
    · rw [lead_of_digits s w hz, h.leadDigit_toNat hs]
      exact fieldLead_le_nine _
    · rw [block_of_digits s hz hj, h.dpdDigits]
      exact validDigits_dpdByRule _

/-- The zero test does not miss a word: zero digits come from a zero leading digit and zero groups. -/
theorem digits_eq_zero_iff : s.digits w = 0 ↔ isZero w = true := by
  refine ⟨fun hdigits => ?_, digits_of_isZero s w⟩
  cases hz : isZero w with
  | true => rfl
  | false =>
    have hlead : fieldLead (cf w) = 0 := by
      rw [← h.leadDigit_toNat hs, ← lead_of_digits s w hz, hdigits]
      decide
    have hgrp : ∀ j < 5, grp w (4 - j) = 0 := fun j hj => by
      apply eq_zero_of_dpdByRule_eq_zero
      rw [← h.dpdDigits, ← block_of_digits s hz hj, hdigits]
      exact BitVec.extractLsb'_zero
    exact hz.symm.trans (isZero_of_fields_eq_zero hlead hgrp)

end State.TablesLoaded

end Sys2Proof.Machine
end

section
/-! The decoder operations: what each answers for a special word and for the others (41_word_decode.md R121 to R128). -/

namespace Sys2Proof.Machine

/-! ### The two bit tests -/

/-- A one-bit answer is the test of whatever the bit decides. -/
theorem ret_ofBool {b : Bool} {p : Prop} [Decidable p] (h : b = true ↔ p) :
    ret (BitVec.ofBool b) = .ok (if p then 1 else 0) := by
  by_cases hp : p
  · rw [if_pos hp, h.mpr hp]
    rfl
  · have hb : b = false := by simpa [hp] using h
    rw [if_neg hp, hb]
    rfl

theorem sign_eq_ofBool (w : Word) : sign w = BitVec.ofBool (w.getLsbD 63) := by
  apply BitVec.eq_of_getLsbD_eq
  intro i hi
  obtain rfl : i = 0 := by omega
  simp [sign]

/-! ### Special words and the others -/

/-- The operations of a word that have no result for a special one (41_word_decode.md R120). -/
def refusingSpecial (w : Word) : List Instr :=
  [.bexp w, .uexp w, .xdig w, .uval w, .sigd w, .signum w, .w2pd w]

/-- Each of them tests for a special word before it reads a table, and the gate before that gives the same status. -/
theorem exec_of_special (s : State) {w : Word} (hs : special w = true) :
    ∀ i ∈ refusingSpecial w, exec i s = .next (s.answered (.failed .unsupported)) := by
  simp [refusingSpecial, exec_eq_answered, responseTo, bexpResponse, uexpResponse, xdigResponse, uvalResponse,
    sigdResponse, signumResponse, w2pdResponse, hs]

section
variable (s : State) {w : Word} (hs : special w = false)
include hs

theorem exec_bexp : exec (.bexp w) s = .next (s.answered (.ok (BitVec.ofNat 64 (s.bexp w).toNat))) := by
  rw [exec_eq_answered, responseTo, bexpResponse, if_neg (by simp [hs]), ret_eq_ok, BitVec.ofNat_toNat]

theorem exec_uexp : exec (.uexp w) s = .next (s.answered (.ok (BitVec.ofInt 64 ((s.bexp w).toNat - 398)))) := by
  rw [exec_eq_answered, responseTo, uexpResponse, if_neg (by simp [hs]), retInt_eq_ok]
  rfl

theorem exec_xdig : exec (.xdig w) s = .next (s.answered (.ok (s.digits w))) := by
  rw [exec_eq_answered, responseTo, xdigResponse, if_neg (by simp [hs]), ret_word]

theorem exec_uval (hw : s.hwAvail = true) :
    exec (.uval w) s = .next (s.answered (.ok (BitVec.ofNat 64 (bcdValue (s.digits w))))) := by
  rw [exec_eq_answered, responseTo, uvalResponse, if_neg (by simp [hw]), if_neg (by simp [hs]), ret_word]

theorem exec_sigd :
    exec (.sigd w) s = .next (s.answered (.ok (BitVec.ofNat 64 (significantDigits (s.digits w))))) := by
  obtain ⟨-, hle⟩ := significantDigits_bounds (s.digits w)
  rw [exec_eq_answered, responseTo, sigdResponse, if_neg (by simp [hs]), ret_eq_ok,
    BitVec.setWidth_ofNat_of_le_of_lt (by decide) (by omega)]

theorem exec_signum_of_negative (hz : isZero w = false) (hsign : sign w = 1) :
    exec (.signum w) s = .next (s.answered (.ok 0xFFFFFFFFFFFFFFFF)) := by
  rw [exec_eq_answered, responseTo, signumResponse, if_neg (by simp [hs]), if_pos (by simp [hz, hsign])]
  rfl

theorem exec_signum_of_isZero (hz : isZero w = true) :
    exec (.signum w) s = .next (s.answered (.ok 0)) := by
  rw [exec_eq_answered, responseTo, signumResponse, if_neg (by simp [hs]), if_neg (by simp [hz]),
    if_pos (by simp [digits_of_isZero s w hz])]
  rfl

theorem exec_signum_of_digits_ne_zero (hsign : sign w = 0) (hdigits : s.digits w ≠ 0) :
    exec (.signum w) s = .next (s.answered (.ok 1)) := by
  rw [exec_eq_answered, responseTo, signumResponse, if_neg (by simp [hs]), if_neg (by simp [hsign]),
    if_neg (by simpa using hdigits)]
  rfl

end

/-! ### The statements -/

/-- Settles O30: the loaded combination entry holds the exponent bits of the format, never 3 in a non-special word. -/
theorem bexpAndUexpAnswerTheExponent : Obligations.BexpAndUexpAnswerTheExponent := by
  refine fun s w h => ⟨fun hs => ⟨?_, ?_, formatBexp_le hs⟩, fun hs => ?_⟩
  · rw [exec_bexp s hs, h.bexp_toNat hs]
  · rw [exec_uexp s hs, h.bexp_toNat hs]
  · exact ⟨exec_of_special s hs _ (by simp [refusingSpecial]), exec_of_special s hs _ (by simp [refusingSpecial])⟩

/-- Settles O31: the loaded entries are the leading digit of the format and the digits of R31. -/
theorem xdigAnswersTheDigits : Obligations.XdigAnswersTheDigits := by
  refine fun s w h => ⟨fun hs => exec_of_special s hs _ (by simp [refusingSpecial]), fun hs hz => ?_, fun hs hz => ?_⟩
  · rw [exec_xdig s hs, digits_of_isZero s w hz]
  · rw [exec_xdig s hs, h.digits_eq_of_not_isZero hs hz]

/-- Settles O34: both operations read the same digits, 16 valid ones. -/
theorem uvalAnswersTheBinaryCoefficient : Obligations.UvalAnswersTheBinaryCoefficient := by
  refine fun s w h => ⟨fun hw hs => ?_, ?_⟩
  · exact ⟨s.digits w, exec_xdig s hs, exec_uval s hs hw, bcdValue_le (h.validDigits_digits hs)⟩
  · rintro (hw | hs)
    · rw [exec_eq_answered, responseTo_of_gated rfl hw]
    · exact exec_of_special s hs _ (by simp [refusingSpecial])

/-- Settles O35: the count stops at the highest nibble that is not zero, and reaches 16 for a zero stream only. -/
theorem sigdCountsTheSignificantDigits : Obligations.SigdCountsTheSignificantDigits := by
  refine fun s w => ⟨fun hs => ?_, fun hs => exec_of_special s hs _ (by simp [refusingSpecial])⟩
  obtain ⟨hpos, hle⟩ := significantDigits_bounds (s.digits w)
  exact ⟨significantDigits (s.digits w), exec_sigd s hs, hpos, hle, fun k => nibble_eq_zero_of_significantDigits_le,
    nibble_significantDigits_ne_zero, fun hzero => hzero ▸ significantDigits_zero⟩

/-- Settles O36: a word that tests zero has zero digits, and no other word has (`digits_eq_zero_iff`), so the last test of
`SIGNUM` tells the positive words from the zeros. -/
theorem signumNeverLeaksANegativeZero : Obligations.SignumNeverLeaksANegativeZero := by
  refine fun s w h => ⟨fun hs => exec_of_special s hs _ (by simp [refusingSpecial]), fun hs =>
    ⟨exec_signum_of_isZero s hs, exec_signum_of_negative s hs, fun hz hsign => ?_⟩⟩
  have hdigits : s.digits w ≠ 0 := mt (h.digits_eq_zero_iff hs).mp (by simp [hz])
  exact exec_signum_of_digits_ne_zero s hs hsign hdigits

/-- Settles O27: the answer is the test bit, and no word is refused. -/
theorem iszeroIsTheBitTest : Obligations.IszeroIsTheBitTest := by
  intro s w
  rw [exec_eq_answered, responseTo, ret_ofBool (isZero_iff w)]
  rfl

/-- Settles O28: the answer is the sign field, one bit wide. -/
theorem wsignIsTheSignBit : Obligations.WsignIsTheSignBit := by
  intro s w
  rw [exec_eq_answered, responseTo, sign_eq_ofBool, ret_ofBool Iff.rfl]

end Sys2Proof.Machine
end

section
/-! The window of the biased exponents and `BIAS` (30_encoding.md R64, 42_word_encode.md R141). -/

namespace Sys2Proof.Machine

theorem outsideWindow_iff (x : Int) : (x < 0 || (Rom.bexpMax : Int) < x) = true ↔ x < 0 ∨ 767 < x := by
  rw [Bool.or_eq_true, decide_eq_true_eq, decide_eq_true_eq]
  rfl

theorem exponentOutside_iff (x : BitVec 32) : exponentOutside x = true ↔ x.toInt < 0 ∨ 767 < x.toInt :=
  outsideWindow_iff x.toInt

theorem exponentOutside_eq_false {x : BitVec 32} (hlo : 0 ≤ x.toInt) (hhi : x.toInt ≤ 767) :
    exponentOutside x = false := by
  rw [Bool.eq_false_iff, ne_eq, exponentOutside_iff]
  omega

theorem Rom.bias_cast : (Rom.bias : Int) = 398 := rfl

theorem exec_bias (s : State) {q : BitVec 32} (hlo : 0 ≤ q.toInt + 398) (hhi : q.toInt + 398 ≤ 767) :
    exec (.bias q) s = .next (s.answered (.ok (BitVec.ofInt 64 (q.toInt + 398)))) := by
  obtain ⟨k, hk⟩ := Int.eq_ofNat_of_zero_le hlo
  have hwiden : (BitVec.ofInt 10 (q.toInt + 398)).setWidth 64 = BitVec.ofInt 64 (q.toInt + 398) := by
    rw [hk, BitVec.ofInt_natCast, BitVec.ofInt_natCast, BitVec.setWidth_ofNat_of_le_of_lt (by decide) (by omega)]
  rw [exec_eq_answered, responseTo, biasResponse, Rom.bias_cast,
    if_neg (mt (outsideWindow_iff (q.toInt + 398)).mp (by omega)), ret_eq_ok, hwiden]

theorem exec_bias_of_outside (s : State) {q : BitVec 32} (hout : q.toInt + 398 < 0 ∨ 767 < q.toInt + 398) :
    exec (.bias q) s = .next (s.answered (.failed .unsupported)) := by
  rw [exec_eq_answered, responseTo, biasResponse, Rom.bias_cast, if_pos ((outsideWindow_iff (q.toInt + 398)).mpr hout),
    raise_eq_failed]

/-- The low half of a 64-bit integer is the same integer in 32 bits. -/
theorem extractLsb'_ofInt (v : Int) : (BitVec.ofInt 64 v).extractLsb' 0 32 = BitVec.ofInt 32 v := by
  apply BitVec.eq_of_toNat_eq
  rw [BitVec.extractLsb'_toNat, BitVec.toNat_ofInt, BitVec.toNat_ofInt, Nat.shiftRight_zero]
  omega

/-- Settles O38: a non-special word has a biased exponent of at most 767, so the 32 bits of its unbiased exponent that
`BIAS` reads still hold that number, and the sum lies in the window. -/
theorem biasAddsWithoutWrappingAndUndoesUexp : Obligations.BiasAddsWithoutWrappingAndUndoesUexp := by
  refine ⟨fun s q => ⟨exec_bias s, exec_bias_of_outside s⟩, fun s w h hs => ?_⟩
  have hexp : (s.bexp w).toNat ≤ 767 := h.bexp_toNat hs ▸ formatBexp_le hs
  have hread : ((BitVec.ofInt 64 ((s.bexp w).toNat - 398)).extractLsb' 0 32).toInt = (s.bexp w).toNat - 398 := by
    rw [extractLsb'_ofInt, BitVec.toInt_ofInt_eq_self (by decide) (by omega) (by omega)]
  refine ⟨_, _, exec_uexp s hs, exec_bias s (by omega) (by omega), ?_⟩
  rw [exec_bexp s hs, hread, Int.sub_add_cancel, BitVec.ofInt_natCast]

end Sys2Proof.Machine
end

section
/-! The constructors `ENCBCD` and `ENCPD`, and the checks that all three constructors share (42_word_encode.md R142
to R144). -/

namespace Sys2Proof.Machine

/-! ### The shared checks -/

/-- The operations that build a word from a biased exponent. -/
def constructors (sg : BitVec 1) (x : BitVec 32) (a : Word) : List Instr :=
  [.encbcd sg x a, .enclong x a, .encpd x a]

/-- Each of them tests the hardware, then the exponent, before it looks at another operand. -/
theorem exec_constructor_of_unsupported (s : State) (sg : BitVec 1) {x : BitVec 32} (a : Word)
    (hout : s.hwAvail = false ∨ x.toInt < 0 ∨ 767 < x.toInt) :
    ∀ i ∈ constructors sg x a, exec i s = .next (s.answered (.failed .unsupported)) := by
  rw [← exponentOutside_iff] at hout
  rcases hout with hw | hx
  · simp [constructors, exec_eq_answered, responseTo, encbcdResponse, enclongResponse, encpdResponse, hw]
  · simp [constructors, exec_eq_answered, responseTo, encbcdResponse, enclongResponse, encpdResponse, hx]

section
variable (s : State) {x : BitVec 32} (hw : s.hwAvail = true) (hlo : 0 ≤ x.toInt) (hhi : x.toInt ≤ 767)
include hw hlo hhi

/-! ### `ENCBCD` (R142) -/

theorem exec_encbcd (sg : BitVec 1) {b : Word} (hb : validDigits b 16 = true) :
    exec (.encbcd sg x b) s = .next (s.answered (.ok (s.encodeWord sg (x.extractLsb' 0 10) b))) := by
  have hx := exponentOutside_eq_false hlo hhi
  rw [exec_eq_answered, responseTo, encbcdResponse, if_neg (by simp [hw]), if_neg (by simp [hx]), if_neg (by simp [hb]),
    ret_word]

theorem exec_encbcd_of_badDigit (sg : BitVec 1) {b : Word} (hb : validDigits b 16 = false) :
    exec (.encbcd sg x b) s = .next (s.answered (.failed .invalidEncoding)) := by
  have hx := exponentOutside_eq_false hlo hhi
  rw [exec_eq_answered, responseTo, encbcdResponse, if_neg (by simp [hw]), if_neg (by simp [hx]), if_pos (by simp [hb]),
    raise_eq_failed]

/-! ### `ENCPD` (R144) -/

theorem exec_encpd {p : Word} (hp : validDigits (p.extractLsb' 4 60) 15 = true) :
    exec (.encpd x p) s = .next (s.answered (.ok (s.encodeWord (BitVec.ofBool (negativeCode (nibble p 0)))
      (x.extractLsb' 0 10) ((p.extractLsb' 4 60).setWidth 64)))) := by
  have hx := exponentOutside_eq_false hlo hhi
  rw [exec_eq_answered, responseTo, encpdResponse, if_neg (by simp [hw]), if_neg (by simp [hx]), if_neg (by simp [hp]),
    ret_word]

theorem exec_encpd_of_badDigit {p : Word} (hp : validDigits (p.extractLsb' 4 60) 15 = false) :
    exec (.encpd x p) s = .next (s.answered (.failed .invalidEncoding)) := by
  have hx := exponentOutside_eq_false hlo hhi
  rw [exec_eq_answered, responseTo, encpdResponse, if_neg (by simp [hw]), if_neg (by simp [hx]), if_pos (by simp [hp]),
    raise_eq_failed]

end

/-- Settles O39: the first two checks do not look at the digits, and only a request that passes all three reaches
`encode_word`. -/
theorem encbcdChecksInOrder : Obligations.EncbcdChecksInOrder := fun s sg _ b =>
  ⟨fun hout => exec_constructor_of_unsupported s sg b hout _ (by simp [constructors]), fun hw hlo hhi =>
    ⟨exec_encbcd_of_badDigit s hw hlo hhi sg, exec_encbcd s hw hlo hhi sg⟩⟩

theorem ofBool_negativeCode :
    ∀ c : BitVec 4, BitVec.ofBool (negativeCode c) = if c = 0xB ∨ c = 0xD then 1 else 0 := by
  decide

/-- The digits of a packed value are what its shift past the sign code leaves. -/
theorem setWidth_extractLsb'_eq_ushiftRight (p : Word) : (p.extractLsb' 4 60).setWidth 64 = p >>> 4 := by
  rw [BitVec.ushiftRight_eq_extractLsb'_of_lt (by decide), BitVec.setWidth_eq_append (by decide)]

theorem nibble_setWidth_of_lt (b : BitVec 60) {k : Nat} (hk : k < 15) : nibble (b.setWidth 64) k = nibble b k := by
  rw [nibble, nibble, BitVec.extractLsb'_setWidth_of_le (by omega)]

theorem nibble_setWidth_top (b : BitVec 60) : nibble (b.setWidth 64) 15 = 0 := by
  rw [BitVec.setWidth_eq_append (by decide)]
  exact BitVec.extractLsb'_append_eq_left

/-- 15 valid digits are 16 valid digits of which the first is 0. -/
theorem validDigits_setWidth {b : BitVec 60} (hb : validDigits b 15 = true) :
    validDigits (b.setWidth 64) 16 = true := by
  rw [validDigits_iff] at hb ⊢
  intro k hk
  by_cases htop : k = 15
  · rw [htop, nibble_setWidth_top]
    decide
  · rw [nibble_setWidth_of_lt b (by omega)]
    exact hb k (by omega)

/-- Settles O42: the digits with a 0 before them pass the check of `ENCBCD`, and both operations put the same sign,
exponent and stream into `encode_word`. -/
theorem encpdEncodesTheSignedDigits : Obligations.EncpdEncodesTheSignedDigits := by
  refine fun s x p => ⟨fun hw hlo hhi => ⟨fun hp => ?_, exec_encpd_of_badDigit s hw hlo hhi⟩, fun hout =>
    exec_constructor_of_unsupported s 0 p hout _ (by simp [constructors])⟩
  refine ⟨_, exec_encpd s hw hlo hhi hp, ?_⟩
  rw [← setWidth_extractLsb'_eq_ushiftRight, ofBool_negativeCode]
  exact exec_encbcd s hw hlo hhi _ (validDigits_setWidth hp)

end Sys2Proof.Machine
end

section
/-! The primitives that read a word: `W2PD` and `ZFIX` (42_word_encode.md R145, R146). -/

namespace Sys2Proof.Machine

/-! ### `W2PD` (R145) -/

/-- The 15 low digits of a stream, three by three. -/
theorem lowDigits_eq_blocks (b : Word) :
    b.extractLsb' 0 60 = b.extractLsb' 48 12 ++ b.extractLsb' 36 12 ++ b.extractLsb' 24 12 ++ b.extractLsb' 12 12
      ++ b.extractLsb' 0 12 := by
  rw [BitVec.extractLsb'_append_extractLsb'_eq_extractLsb' (by rfl),
    BitVec.extractLsb'_append_extractLsb'_eq_extractLsb' (by rfl),
    BitVec.extractLsb'_append_extractLsb'_eq_extractLsb' (by rfl),
    BitVec.extractLsb'_append_extractLsb'_eq_extractLsb' (by rfl)]

theorem exec_w2pd (s : State) {w : Word} (hw : s.hwAvail = true) (hs : special w = false)
    (htop : (s.digits w).extractLsb' 60 4 = 0) :
    exec (.w2pd w) s = .next (s.answered (.ok
      ((s.digits w).extractLsb' 0 60 ++ (if sign w = 1 ∧ isZero w = false then 0xD#4 else 0xC#4)))) := by
  simp [exec_eq_answered, responseTo, w2pdResponse, hw, hs, htop]

theorem exec_w2pd_of_isZero (s : State) {w : Word} (hw : s.hwAvail = true) (hs : special w = false)
    (hz : isZero w = true) : exec (.w2pd w) s = .next (s.answered (.ok 0xC)) := by
  have hdigits := digits_of_isZero s w hz
  rw [exec_w2pd s hw hs (hdigits ▸ BitVec.extractLsb'_zero), hdigits, if_neg (by simp [hz])]
  rfl

/-- A 16th digit is refused, with the status that the two checks before it give too. -/
theorem exec_w2pd_of_sixteenDigits (s : State) {w : Word} (htop : (s.digits w).extractLsb' 60 4 ≠ 0) :
    exec (.w2pd w) s = .next (s.answered (.failed .unsupported)) := by
  have hcheck : ((s.digits w).extractLsb' 60 4 != 0#4) = true := bne_iff_ne.mpr htop
  simp only [exec_eq_answered, responseTo, w2pdResponse, hcheck, if_true, ite_self, raise_eq_failed]

namespace State.TablesLoaded

variable {s : State} (h : s.TablesLoaded) {w : Word} (hz : isZero w = false)
include h hz

theorem topDigit_eq_zero_iff (hs : special w = false) :
    (s.digits w).extractLsb' 60 4 = 0 ↔ fieldLead (cf w) = 0 := by
  rw [lead_of_digits s w hz, ← BitVec.toNat_inj, h.leadDigit_toNat hs]
  rfl

theorem lowDigits_of_digits :
    (s.digits w).extractLsb' 0 60 = dpdByRule (grp w 0) ++ dpdByRule (grp w 1) ++ dpdByRule (grp w 2)
      ++ dpdByRule (grp w 3) ++ dpdByRule (grp w 4) := by
  rw [lowDigits_eq_blocks, grp0_of_digits s w hz, grp1_of_digits s w hz, grp2_of_digits s w hz, grp3_of_digits s w hz,
    grp4_of_digits s w hz]
  simp only [h.dpdDigits]

end State.TablesLoaded

/-- Settles O43: the 16th digit of a word that does not test zero is the leading digit of the format, the other 15 are
those of its groups, and all three checks fail with the same status. -/
theorem w2pdPacksFifteenDigits : Obligations.W2pdPacksFifteenDigits := by
  refine fun s w h => ⟨exec_w2pd_of_isZero s, fun hw hs hz hlead => ?_, fun hz hlead => ?_, ?_⟩
  · rw [exec_w2pd s hw hs ((h.topDigit_eq_zero_iff hz hs).mpr hlead), h.lowDigits_of_digits hz]
    simp only [hz, and_true]
  · cases hs : special w with
    | true => exact exec_of_special s hs _ (by simp [refusingSpecial])
    | false => exact exec_w2pd_of_sixteenDigits s (mt (h.topDigit_eq_zero_iff hz hs).mp hlead)
  · rintro (hw | hs)
    · rw [exec_eq_answered, responseTo_of_gated rfl hw]
    · exact exec_of_special s hs _ (by simp [refusingSpecial])

/-! ### `ZFIX` (R146) -/

theorem exec_zfix (s : State) (w : Word) : exec (.zfix w) s = .next (s.answered (.ok (zfix w))) := by
  rw [exec_eq_answered, responseTo, ret_word]

theorem zfix_of_isZero {w : Word} (hz : isZero w = true) : zfix w = 0#1 ++ w.extractLsb' 0 63 := if_pos hz

theorem zfix_of_not_isZero {w : Word} (hz : isZero w = false) : zfix w = w := if_neg (by simp [hz])

theorem sign_append (sg : BitVec 1) (m : BitVec 63) : sign (sg ++ m) = sg := BitVec.extractLsb'_append_eq_left

/-- A word whose sign is clear has nothing to be fixed, zero or not. -/
theorem zfix_zero_append (m : BitVec 63) : zfix (0#1 ++ m) = 0#1 ++ m := by
  cases hz : isZero (0#1 ++ m) with
  | true => exact (zfix_of_isZero hz).trans (congrArg (0#1 ++ ·) BitVec.extractLsb'_append_eq_right)
  | false => exact zfix_of_not_isZero hz

theorem zfix_zfix (w : Word) : zfix (zfix w) = zfix w := by
  cases hz : isZero w with
  | true => rw [zfix_of_isZero hz, zfix_zero_append]
  | false => rw [zfix_of_not_isZero hz, zfix_of_not_isZero hz]

/-- Settles O44: the fixed word of a zero starts with the sign 0, and a word with the sign 0 is left alone. -/
theorem zfixClearsTheSignOfAZero : Obligations.ZfixClearsTheSignOfAZero := by
  refine fun s w => ⟨zfix w, exec_zfix s w, fun hz => ⟨zfix_of_isZero hz, ?_⟩, zfix_of_not_isZero, ?_⟩
  · rw [exec_eq_answered, responseTo, zfix_of_isZero hz, sign_append]
    rfl
  · rw [exec_zfix, zfix_zfix]

end Sys2Proof.Machine
end

section
/-! The boundary operations `PDSIGN`, `RMMAP` and `NDIG` (43_ancillary.md R160 to R162). -/

namespace Sys2Proof.Machine

/-! ### `PDSIGN` (R160) -/

theorem negativeCode_iff (n4 : BitVec 4) : negativeCode n4 = true ↔ n4 = 0xB ∨ n4 = 0xD := by
  simp [negativeCode]

/-- Settles O50: the one bit answered is the test for a negative code. -/
theorem pdsignTellsTheNegativeCodes : Obligations.PdsignTellsTheNegativeCodes := by
  intro s n4
  rw [exec_eq_answered, responseTo, ret_ofBool (negativeCode_iff n4)]

/-! ### `RMMAP` (R161) -/

theorem exec_rmmap (s : State) (m : BitVec 3) :
    exec (.rmmap m) s = .next (s.answered (.ok ((rmmap m).setWidth 64))) := by
  rw [exec_eq_answered, responseTo, ret_eq_ok]

theorem rmmap_ordinal (m : RoundingMode) : rmmap m.ordinal = m.hardwareCode := by
  cases m <;> rfl

theorem rmmap_rmmap : ∀ m : BitVec 3, rmmap (rmmap m) = m := by
  decide

/-- Settles O51: the remap turns the ordinals of R69 into the codes, and it is its own inverse. -/
theorem rmmapGivesTheCodeOfTheSameMode : Obligations.RmmapGivesTheCodeOfTheSameMode := by
  refine fun s m => ⟨?_, ?_⟩
  · rw [exec_rmmap, rmmap_ordinal]
  · rw [exec_rmmap, ← rmmap_ordinal, rmmap_rmmap]

/-! ### `NDIG` (R162) -/

/-- `k` is the number of decimal digits of `m`, one digit for 0 (R162). -/
structure IsDigitCount (m k : Nat) : Prop where
  pos : 1 ≤ k
  lt_pow : m < 10 ^ k
  pow_le : k = 1 ∨ 10 ^ (k - 1) ≤ m

/-- A number below a power of ten has at most as many digits as the exponent says. -/
theorem IsDigitCount.le_of_lt_pow {m k n : Nat} (hk : IsDigitCount m k) (hn : 1 ≤ n) (hm : m < 10 ^ n) : k ≤ n := by
  rcases hk.pow_le with hone | hpow
  · omega
  · have hlt : k - 1 < n := (Nat.pow_lt_pow_iff_right (by decide)).mp (Nat.lt_of_le_of_lt hpow hm)
    omega

/-- One comparison of the search with the loaded table: with the power itself. -/
theorem State.TablesLoaded.digitSearch_succ {s : State} (h : s.TablesLoaded) (m fuel : Nat) {k : Nat} (hk : k < 19) :
    digitSearch s m (fuel + 1) k = if 10 ^ k ≤ m then digitSearch s m fuel (k + 1) else k := by
  have hpow : 10 ^ k < 10 ^ 19 := Nat.pow_lt_pow_right (by decide) hk
  have hword : 10 ^ k < 2 ^ 64 := Nat.lt_trans hpow (by decide)
  simp only [digitSearch, h.pow10Entry?_eq_some hk, BitVec.toNat_ofNat, Nat.mod_eq_of_lt hword]

/-- A search from at most the digit count, with comparisons enough to reach it, finds it. -/
theorem State.TablesLoaded.digitSearch_isDigitCount {s : State} (h : s.TablesLoaded) {m fuel k : Nat} (hpos : 1 ≤ k)
    (hfrom : k = 1 ∨ 10 ^ (k - 1) ≤ m) (hreach : m < 10 ^ (k + fuel)) (htable : k + fuel ≤ 19) :
    IsDigitCount m (digitSearch s m fuel k) := by
  induction fuel generalizing k with
  | zero => exact ⟨hpos, hreach, hfrom⟩
  | succ fuel ih =>
    have hnext : k + 1 + fuel = k + (fuel + 1) := by omega
    rw [h.digitSearch_succ m fuel (by omega)]
    split
    next hle => exact ih (Nat.le_add_left ..) (.inr hle) (hnext ▸ hreach) (hnext ▸ htable)
    next hlt => exact ⟨hpos, Nat.lt_of_not_le hlt, hfrom⟩

theorem State.TablesLoaded.decimalDigits_isDigitCount {s : State} (h : s.TablesLoaded) {m : Nat} (hm : m < 10 ^ 19) :
    IsDigitCount m (decimalDigits s m) :=
  h.digitSearch_isDigitCount (Nat.le_refl 1) (.inl rfl) hm (by decide)

/-- The magnitude of an `i64`, at most 2^63, has at most 19 digits. -/
theorem natAbs_toInt_lt (n : Word) : n.toInt.natAbs < 10 ^ 19 := by
  have hlo := BitVec.le_toInt n
  have hhi := BitVec.toInt_lt (x := n)
  omega

theorem exec_ndig (s : State) (n : Word) (hle : decimalDigits s n.toInt.natAbs ≤ 19) :
    exec (.ndig n) s = .next (s.answered (.ok (BitVec.ofNat 64 (decimalDigits s n.toInt.natAbs)))) := by
  rw [exec_eq_answered, responseTo, ret_eq_ok, BitVec.setWidth_ofNat_of_le_of_lt (by decide) (by omega)]

/-- Settles O52: the search over the loaded table ends at the digit count of the magnitude, which fits the answer. -/
theorem ndigCountsTheDecimalDigits : Obligations.NdigCountsTheDecimalDigits := by
  intro s n h
  have hcount := h.decimalDigits_isDigitCount (natAbs_toInt_lt n)
  have hle := hcount.le_of_lt_pow (by decide) (natAbs_toInt_lt n)
  exact ⟨_, exec_ndig s n hle, hcount.pos, hle, hcount.lt_pow, hcount.pow_le⟩

end Sys2Proof.Machine
end

section
/-! The status of a response against the cause table (60_exceptions.md R201, R202), and what a response leaves behind
(R205). -/

namespace Sys2Proof.Machine

/-! ### The failing status of a response -/

/-- The failing status of a response, nothing for `OK` (R200). -/
def Response.failure? : Response → Option Failure
  | .ok _ => none
  | .failed f => some f

@[simp] theorem Response.failure?_ok (v : Word) : (Response.ok v).failure? = none := rfl

@[simp] theorem Response.failure?_ret {n : Nat} (v : BitVec n) : (ret v).failure? = none := rfl

@[simp] theorem Response.failure?_retInt (v : Int) : (retInt v).failure? = none := rfl

@[simp] theorem Response.failure?_failed (f : Failure) : (Response.failed f).failure? = some f := rfl

theorem Response.eq_failed_of_failure?_eq_some {r : Response} {f : Failure} (h : r.failure? = some f) :
    r = .failed f := by
  cases r with
  | ok v => cases h
  | failed g => rw [Option.some.inj h]

theorem Response.exists_ok_of_failure?_eq_none {r : Response} (h : r.failure? = none) : ∃ v, r = .ok v := by
  cases r with
  | ok v => exact ⟨v, rfl⟩
  | failed g => cases h

/-- A check of an operation contributes its status when it fails, otherwise what follows decides. -/
@[simp] theorem Response.failure?_ite (c : Prop) [Decidable c] (r r' : Response) :
    (if c then r else r').failure? = if c then r.failure? else r'.failure? :=
  apply_ite Response.failure? c r r'

/-! ### The cause table -/

/-- The first cause of a list decides if it applies, otherwise the first of the rest. -/
theorem map_status_find?_cons (p : Cause → Bool) (c : Cause) (cs : List Cause) :
    ((c :: cs).find? p).map Cause.status = if p c then some c.status else (cs.find? p).map Cause.status := by
  rw [List.find?_cons]
  cases p c <;> rfl

/-- Steps 2 to 7 of R202 as a chain of tests. -/
theorem priorityStatus_eq (s : State) (i : Instr) :
    priorityStatus s i =
      if Cause.tableIndex.appliesTo s i then some .illegal
      else if Cause.hardwareAbsent.appliesTo s i then some .unsupported
      else if Cause.specialWord.appliesTo s i then some .unsupported
      else if Cause.comboIndex.appliesTo s i then some .unsupported
      else if Cause.exponentRange.appliesTo s i then some .unsupported
      else if Cause.digitNibble.appliesTo s i then some .invalidEncoding
      else if Cause.wideMagnitude.appliesTo s i then some .unsupported
      else if Cause.sixteenthDigit.appliesTo s i then some .unsupported
      else none := by
  simp only [priorityStatus, Cause.inOrder, map_status_find?_cons]
  rfl

/-- `POW10` has one cause, which is that the table has no entry. -/
theorem failure?_pow10Response (s : State) (i : BitVec 5) :
    (pow10Response s i).failure? = if 19 ≤ i.toNat then some .illegal else none := by
  rw [pow10Response]
  cases hentry : s.pow10Entry? i.toNat with
  | none => rw [if_pos ((pow10Entry?_eq_none s _).mp hentry)]; rfl
  | some v => rw [if_neg (mt (pow10Entry?_eq_none s _).mpr (by simp [hentry]))]; rfl

/-- `BIAS` has one cause, which is that the sum lies outside the window. -/
theorem failure?_biasResponse (q : BitVec 32) :
    (biasResponse q).failure? = if q.toInt + 398 < 0 ∨ 767 < q.toInt + 398 then some .unsupported else none := by
  rw [biasResponse, Rom.bias_cast, Response.failure?_ite]
  simp only [outsideWindow_iff]
  rfl

/-- The checks of each operation are the causes that the table lists for it, tested in the table's order. -/
theorem failure?_responseTo (s : State) (i : Instr) : (responseTo s i).failure? = priorityStatus s i := by
  rw [priorityStatus_eq]
  cases i with
  | bcd2dpd d => simp [responseTo, bcd2dpdResponse, Cause.appliesTo]
  | combo c => simp [responseTo, comboResponse, Cause.appliesTo]
  | comboenc digit exphi => simp [responseTo, comboencResponse, Cause.appliesTo]
  | pow10 i => simp [responseTo, failure?_pow10Response, Cause.appliesTo]
  | bexp w => simp [responseTo, bexpResponse, Cause.appliesTo]
  | uexp w => simp [responseTo, uexpResponse, Cause.appliesTo]
  | xdig w => simp [responseTo, xdigResponse, Cause.appliesTo]
  | uval w => simp [responseTo, uvalResponse, Cause.appliesTo]
  | sigd w => simp [responseTo, sigdResponse, Cause.appliesTo]
  | signum w => simp [responseTo, signumResponse, Cause.appliesTo]
  | bias q => simp [responseTo, failure?_biasResponse, Cause.appliesTo]
  | encbcd sg x b => simp [responseTo, encbcdResponse, Cause.appliesTo]
  | enclong x n => simp [responseTo, enclongResponse, Cause.appliesTo]
  | encpd x p => simp [responseTo, encpdResponse, Cause.appliesTo]
  | w2pd w => simp [responseTo, w2pdResponse, Cause.appliesTo]
  | _ => rfl

/-! ### The status of a request -/

/-- Step 1 of R202: a reserved code. -/
theorem responseToRequest_of_reserved (s : State) {q : Request} (hop : operation q = none) :
    responseToRequest s q = .failed .illegal := by
  simp only [responseToRequest, decode, hop]

/-- Step 2 of R202: an operand bit that the operation does not read. -/
theorem responseToRequest_of_unread (s : State) {q : Request} {i : Instr} (hop : operation q = some i)
    (hclear : unreadClear q = false) : responseToRequest s q = .failed .illegal := by
  simp [responseToRequest, decode, hop, hclear]

theorem responseToRequest_of_accepted (s : State) {q : Request} {i : Instr} (hop : operation q = some i)
    (hclear : unreadClear q = true) : responseToRequest s q = responseTo s i := by
  simp only [responseToRequest, decode, hop, hclear, if_true]

/-- Settles O13: the decoder answers the first two causes, and the checks of the accepted operation are the rest of the
cause table in its order (`failure?_responseTo`). -/
theorem statusIsThatOfTheFirstCause : Obligations.StatusIsThatOfTheFirstCause := by
  refine fun s q rest h => ⟨responseToRequest s q, step_eq_answered h, ?_⟩
  cases hop : operation q with
  | none => exact responseToRequest_of_reserved s hop
  | some i =>
    cases hclear : unreadClear q with
    | false => exact responseToRequest_of_unread s hop hclear
    | true =>
      simp only [responseToRequest_of_accepted s hop hclear, Bool.true_eq_false, if_false]
      cases hstatus : priorityStatus s i with
      | none => exact Response.exists_ok_of_failure?_eq_none ((failure?_responseTo s i).trans hstatus)
      | some f => exact Response.eq_failed_of_failure?_eq_some ((failure?_responseTo s i).trans hstatus)

/-! ### What a response leaves behind (R205) -/

/-- A step overwrites the response port and does not read it. -/
theorem step_answered (s : State) (r : Response) : step (s.answered r) = step s := by
  cases hreq : s.requests with
  | nil =>
    rw [step_nil s hreq, step_nil (s.answered r) hreq]
    rfl
  | cons q rest =>
    have hsame : responseToRequest (s.answered r) q = responseToRequest s q :=
      responseToRequest_ports s s.requests (some r) q
    rw [step_eq_answered hreq, step_eq_answered (s := s.answered r) hreq, hsame]
    rfl

/-- Settles O18: a failing request, like any other, leaves its response on the response port and nothing else; the next
step does not read that port (`step_answered`). -/
theorem aFailureLeavesNothingBehind : Obligations.AFailureLeavesNothingBehind := by
  intro s t q rest f h hstep _
  obtain rfl : State.answered { s with requests := rest } (responseToRequest s q) = t := by
    simpa [step_eq_answered h] using hstep
  exact step_answered _ _

end Sys2Proof.Machine
end

section
/-! What a step keeps (10_state.md R27, R29, R105) and that it always leads on (93_implementation_defined.md part 1). -/

namespace Sys2Proof.Machine

/-- A step either waits, clearing the response port, or takes the oldest request and answers it. -/
theorem step_cases {s t : State} (h : step s = .next t) :
    (s.requests = [] ∧ t = { s with response := none })
      ∨ ∃ q rest, s.requests = q :: rest ∧ t = State.answered { s with requests := rest } (responseToRequest s q) := by
  by_cases hnil : s.requests = []
  · rw [step_nil s hnil] at h
    cases h
    exact .inl ⟨hnil, rfl⟩
  · obtain ⟨q, rest, hreq⟩ := List.exists_cons_of_ne_nil hnil
    rw [step_eq_answered hreq] at h
    cases h
    exact .inr ⟨q, rest, hreq, rfl⟩

/-- The invariant speaks of the tables only. -/
theorem State.TablesLoaded.of_tables_eq {s t : State} (h : s.TablesLoaded) (hdpd : t.romDpd = s.romDpd)
    (hcombo : t.romCombo = s.romCombo) (hpow10 : t.romPow10 = s.romPow10) : t.TablesLoaded :=
  ⟨hdpd.trans h.dpd, fun c => by simp only [hcombo, h.combo], hpow10.trans h.pow10⟩

theorem step_keeps_tables_and_strap {s t : State} (h : step s = .next t) :
    t.romDpd = s.romDpd ∧ t.romCombo = s.romCombo ∧ t.romPow10 = s.romPow10 ∧ t.hwAvail = s.hwAvail := by
  obtain ⟨-, rfl⟩ | ⟨q, rest, -, rfl⟩ := step_cases h
  · exact ⟨rfl, rfl, rfl, rfl⟩
  · exact ⟨rfl, rfl, rfl, rfl⟩

/-- Settles O3: a step that waits and a step that answers both change the ports only. -/
theorem stepKeepsTheTablesLoaded : Obligations.StepKeepsTheTablesLoaded := by
  intro s t hstep
  obtain ⟨hdpd, hcombo, hpow10, hstrap⟩ := step_keeps_tables_and_strap hstep
  exact ⟨⟨hdpd, hcombo, hpow10, hstrap⟩, fun h => h.of_tables_eq hdpd hcombo hpow10⟩

/-- Settles O2: the tables are loaded at reset. -/
theorem tablesLoadedAtReset : Obligations.TablesLoadedAtReset := State.reset_tablesLoaded

/-- Settles O4: at reset the request port is empty, so the step waits, and the response port is already clear. -/
theorem resetWaitsForRequests : Obligations.ResetWaitsForRequests :=
  ⟨rfl, step_nil State.reset rfl⟩

/-- Settles O5: the oldest request is taken and the decoder accepts it. -/
theorem stepRunsTheDecodedOperation : Obligations.StepRunsTheDecodedOperation := by
  intro s q rest i hreq hdecode
  simp only [step, takeRequest_cons s q rest hreq, hdecode]

/-- Settles O6: the response is `responseToRequest`. -/
theorem everyRequestIsAnswered : Obligations.EveryRequestIsAnswered :=
  fun s q _ hreq => ⟨responseToRequest s q, step_eq_answered hreq⟩

/-- No step faults or is refused. -/
theorem exists_step_eq_next (s : State) : ∃ t, step s = .next t := by
  cases hreq : s.requests with
  | nil => exact ⟨_, step_nil s hreq⟩
  | cons q rest => exact ⟨_, step_eq_answered hreq⟩

theorem run_succ_of_step {s t : State} (h : step s = .next t) (n : Nat) :
    Host.Core.run Sys2Proof.core (n + 1) s = Host.Core.run Sys2Proof.core n t := by
  have hcore : Sys2Proof.core.step s = .next t := h
  simp only [Host.Core.run, hcore]

/-- Settles O7: every step leads to a next state, so a run of any length does. -/
theorem theBlockNeverStops : Obligations.TheBlockNeverStops := by
  intro s n
  induction n generalizing s with
  | zero => exact ⟨s, rfl⟩
  | succ n ih =>
    obtain ⟨t, ht⟩ := exists_step_eq_next s
    rw [run_succ_of_step ht]
    exact ih t

/-- Settles O19: no operation reads the entries on which the two states may differ. -/
theorem openComboEntriesAreNeverRead : Obligations.OpenComboEntriesAreNeverRead := by
  intro s t i hdpd hpow10 hstrap hcombo
  have htables : s.SameTables t := ⟨hdpd, hcombo, hpow10⟩
  refine ⟨responseTo s i, exec_eq_answered s i, ?_⟩
  rw [exec_eq_answered, htables.responseTo_eq i fun _ => hstrap]

/-- A reset gives loaded tables the values they have, up to the two open entries. -/
theorem State.TablesLoaded.sameTables_resetInput {s : State} (h : s.TablesLoaded) : s.SameTables s.resetInput where
  dpd := s.resetInput_romDpd.trans h.dpd.symm
  combo c hc := by
    rw [h.comboEntry c hc]
    simp only [State.comboEntry, State.resetInput_romCombo]
  pow10 := s.resetInput_romPow10.trans h.pow10.symm

/-- Settles O20: after a reset the tables answer as before it, and the strap and the ports are untouched. -/
theorem aLaterResetIsUnobservable : Obligations.ALaterResetIsUnobservable := by
  intro s q rest h hreq
  refine ⟨rfl, responseToRequest s q, step_eq_answered hreq, ?_⟩
  rw [step_eq_answered (s.resetInput_requests.trans hreq), h.sameTables_resetInput.responseToRequest_eq rfl]

/-- Settles O57: a line that has a request takes one step, which answers that request and leaves those that waited. -/
theorem aWrittenLineDefinesItsDestOnSuccessOnly : Obligations.AWrittenLineDefinesItsDestOnSuccessOnly := by
  intro s t vars vars' l h
  unfold evaluateLine at h
  cases hq : l.request vars with
  | none => simp [hq] at h
  | some q =>
    have hstep := step_eq_answered (s.presentFirst_requests q)
    cases hr : responseToRequest (s.presentFirst q) q with
    | ok r =>
      obtain ⟨rfl, rfl⟩ : State.answered s (.ok r) = t ∧ (l.dest, r) :: vars = vars' := by
        simpa [hq, hstep, hr] using h
      exact ⟨⟨rfl, rfl, rfl, rfl, rfl⟩, .inl ⟨r, rfl, rfl⟩⟩
    | failed f =>
      obtain ⟨rfl, rfl⟩ : State.answered s (.failed f) = t ∧ vars = vars' := by
        simpa [hq, hstep, hr] using h
      exact ⟨⟨rfl, rfl, rfl, rfl, rfl⟩, .inr ⟨f, rfl, rfl⟩⟩

end Sys2Proof.Machine
end

section
/-! The encoder and the decoder are inverse to each other (30_encoding.md R70 to R74). -/

namespace Sys2Proof

/-! ### Operands narrower than their field -/

/-- An operand of `n` bits read back from the low end of `a`. -/
theorem extractLsb'_setWidth_self {n : Nat} (v : BitVec n) (hn : n ≤ 64) :
    (v.setWidth 64).extractLsb' 0 n = v := by
  rw [BitVec.extractLsb'_setWidth_of_le (by omega)]
  exact BitVec.extractLsb'_eq_self

/-- Above an operand of `n` bits `a` is clear. -/
theorem setWidth_ushiftRight_self {n : Nat} (v : BitVec n) : v.setWidth 64 >>> n = 0#64 := by
  apply BitVec.eq_of_getLsbD_eq
  intro i hi
  simp [BitVec.getLsbD_setWidth]

/-- Above an operand of 64 bits there is nothing. -/
theorem word_ushiftRight_self (w : Word) : w >>> 64 = 0#64 := BitVec.ushiftRight_eq_zero (Nat.le_refl 64)

/-- An `a` that is clear above its low `n` bits is what those bits, widened, are. -/
theorem setWidth_extractLsb'_eq_self {a : Word} {n : Nat} (ha : a >>> n = 0#64) :
    (a.extractLsb' 0 n).setWidth 64 = a := by
  apply BitVec.eq_of_getLsbD_eq
  intro i hi
  by_cases hin : i < n
  · simp [hi, hin]
  · have hbit : (a >>> n).getLsbD (i - n) = false := by simp [ha]
    rw [BitVec.getLsbD_ushiftRight, Nat.add_sub_cancel' (by omega)] at hbit
    simp [BitVec.getLsbD_setWidth, hin, hbit]

/-- The two operands of `COMBOENC` stand side by side. -/
theorem comboenc_operands (a : Word) : a.extractLsb' 2 4 ++ a.extractLsb' 0 2 = a.extractLsb' 0 6 :=
  BitVec.extractLsb'_append_extractLsb'_eq_extractLsb' rfl

/-! ### Decoding what was encoded -/

theorem operation_encode (i : Instr) : operation (encode i) = some i := by
  cases i with
  | dpd2bcd g => simp [encode, operation, extractLsb'_setWidth_self]
  | bcd2dpd d => simp [encode, operation, extractLsb'_setWidth_self]
  | combo c => simp [encode, operation, extractLsb'_setWidth_self]
  | comboenc digit exphi =>
    have hdigit : ((digit ++ exphi).setWidth 64).extractLsb' 2 4 = digit := by
      rw [BitVec.extractLsb'_setWidth_of_le (by omega)]
      exact BitVec.extractLsb'_append_eq_left
    have hexphi : ((digit ++ exphi).setWidth 64).extractLsb' 0 2 = exphi := by
      rw [BitVec.extractLsb'_setWidth_of_le (by omega)]
      exact BitVec.extractLsb'_append_eq_right
    simp [encode, operation, hdigit, hexphi]
  | pow10 k => simp [encode, operation, extractLsb'_setWidth_self]
  | pdsign n4 => simp [encode, operation, extractLsb'_setWidth_self]
  | rmmap m => simp [encode, operation, extractLsb'_setWidth_self]
  | _ => simp [encode, operation]

theorem unreadClear_encode (i : Instr) : unreadClear (encode i) = true := by
  cases i <;> simp [encode, unreadClear, readsA, readsE, readsS, setWidth_ushiftRight_self, word_ushiftRight_self]

theorem decode_eq_ok_iff (q : Request) (i : Instr) :
    decode q = .ok i ↔ operation q = some i ∧ unreadClear q = true := by
  cases hop : operation q with
  | none => simp [decode, hop]
  | some j => cases hclear : unreadClear q <;> simp [decode, hop, hclear]

/-- Settles O8: the request of an instruction names it, and holds 0 in every bit that is not read. -/
theorem decodeOfEncodeIsTheInstruction : Obligations.DecodeOfEncodeIsTheInstruction :=
  fun i => (decode_eq_ok_iff _ i).mpr ⟨operation_encode i, unreadClear_encode i⟩

/-! ### Encoding what was decoded -/

theorem unreadClear_iff (q : Request) : unreadClear q = true ↔
    aField q >>> readsA (opField q) = 0 ∧ (readsE (opField q) = true ∨ eField q = 0)
      ∧ (readsS (opField q) = true ∨ sField q = 0) := by
  simp [unreadClear, and_assoc]

/-- The unread bits are 0 on both sides, and the bits of `a` that are read fill the operands. -/
theorem encode_of_operation {q : Request} {i : Instr} (hop : operation q = some i) (hclear : unreadClear q = true) :
    encode i = q := by
  obtain ⟨ha, he, hs⟩ := (unreadClear_iff q).mp hclear
  rw [← mkRequest_fields q]
  unfold operation at hop
  split at hop
  case h_23 => cases hop
  all_goals
    next hcode =>
    have hfield := BitVec.ofNat_toNat 5 (opField q)
    rw [hcode, BitVec.setWidth_eq] at hfield
    obtain rfl := Option.some.inj hop
    simp only [readsA, readsE, readsS, hcode, Bool.false_eq_true, false_or, BitVec.ushiftRight_zero] at ha he hs
    simp [encode, ← hfield, he, hs, comboenc_operands, setWidth_extractLsb'_eq_self, ha]

/-- Settles O9: an accepted request names its operation and is clear in the bits that the operation does not read. -/
theorem encodeOfDecodeIsTheRequest : Obligations.EncodeOfDecodeIsTheRequest := by
  intro q i hdecode
  obtain ⟨hop, hclear⟩ := (decode_eq_ok_iff q i).mp hdecode
  exact encode_of_operation hop hclear

end Sys2Proof
end

section
/-! Which requests are malformed (60_exceptions.md R202 steps 1 and 2), and what the response port carries
(30_encoding.md R71). -/

namespace Sys2Proof.Machine

/-- Settles O12: the decoder evaluates each request to what it stands for. -/
theorem writtenOutRequestsDecode : Obligations.WrittenOutRequestsDecode :=
  ⟨rfl, rfl, rfl, rfl, rfl, rfl, rfl, rfl, rfl⟩

/-! ### Malformed requests -/

/-- Steps 1 and 2 of R202 as far as the decoder sees them. -/
theorem responseToRequest_of_unreadClear_eq_false (s : State) {q : Request} (hclear : unreadClear q = false) :
    responseToRequest s q = .failed .illegal := by
  cases hop : operation q with
  | none => exact responseToRequest_of_reserved s hop
  | some i => exact responseToRequest_of_unread s hop hclear

theorem readsE_iff : ∀ {op : BitVec 5}, readsE op = true ↔ op ∈ [0x10#5, 0x11#5, 0x12#5, 0x13#5] := by
  decide

theorem readsS_iff : ∀ {op : BitVec 5}, readsS op = true ↔ op = 0x11#5 := by
  decide

/-- A 1 in one of the three operands where the operation does not read it. -/
theorem unreadClear_eq_false {q : Request}
    (h : (∃ k, readsA (opField q) ≤ k ∧ (aField q).getLsbD k = true)
      ∨ (eField q ≠ 0 ∧ readsE (opField q) = false) ∨ (sField q ≠ 0 ∧ readsS (opField q) = false)) :
    unreadClear q = false := by
  rw [Bool.eq_false_iff, ne_eq, unreadClear_iff]
  rintro ⟨ha, he, hs⟩
  obtain ⟨k, hk, hbit⟩ | ⟨hne, hreads⟩ | ⟨hne, hreads⟩ := h
  · have hshift : (aField q >>> readsA (opField q)).getLsbD (k - readsA (opField q)) = true := by
      rwa [BitVec.getLsbD_ushiftRight, Nat.add_sub_cancel' hk]
    simp [ha] at hshift
  · exact he.elim (by simp [hreads]) hne
  · exact hs.elim (by simp [hreads]) hne

/-- A `POW10` index above 18: above 31 it does not fit the bits that are read, below 32 the table has no such entry. -/
theorem responseToRequest_of_pow10_index (s : State) {q : Request} (hcode : opField q = 0x04#5)
    (hindex : 19 ≤ (aField q).toNat) : responseToRequest s q = .failed .illegal := by
  cases hclear : unreadClear q with
  | false => exact responseToRequest_of_unreadClear_eq_false s hclear
  | true =>
    have hop : operation q = some (.pow10 ((aField q).extractLsb' 0 5)) := by
      simp [operation, hcode]
    obtain ⟨ha, -⟩ := (unreadClear_iff q).mp hclear
    have hread : ((aField q).extractLsb' 0 5).toNat = (aField q).toNat := by
      rw [hcode] at ha
      have hvalue := congrArg BitVec.toNat (setWidth_extractLsb'_eq_self (n := 5) ha)
      rwa [BitVec.toNat_setWidth_of_le (by decide)] at hvalue
    rw [← hread] at hindex
    rw [responseToRequest_of_accepted s hop hclear]
    simp only [responseTo, pow10Response, (pow10Entry?_eq_none s _).mpr hindex, raise_eq_failed]

/-- Settles O11: the first four causes are the decoder's, the last one is the table's end. -/
theorem malformedRequestsAnswerIllegal : Obligations.MalformedRequestsAnswerIllegal := by
  intro s q rest hreq h
  have hillegal : responseToRequest s q = .failed .illegal := by
    rcases h with hcode | ha | ⟨he, hcode⟩ | ⟨hs, hcode⟩ | ⟨hcode, hindex⟩
    · exact responseToRequest_of_reserved s ((operation_eq_none_iff q).mpr hcode)
    · exact responseToRequest_of_unreadClear_eq_false s (unreadClear_eq_false (.inl ha))
    · have hreads : readsE (opField q) = false := Bool.eq_false_iff.mpr (mt readsE_iff.mp hcode)
      exact responseToRequest_of_unreadClear_eq_false s (unreadClear_eq_false (.inr (.inl ⟨he, hreads⟩)))
    · have hreads : readsS (opField q) = false := Bool.eq_false_iff.mpr (mt readsS_iff.mp hcode)
      exact responseToRequest_of_unreadClear_eq_false s (unreadClear_eq_false (.inr (.inr ⟨hs, hreads⟩)))
    · exact responseToRequest_of_pow10_index s hcode hindex
  rw [step_eq_answered hreq, hillegal]

/-! ### The response port -/

theorem Response.port_st (r : Response) (u : Word) : (r.port u).extractLsb' 64 2 = r.st := by
  cases r <;> exact BitVec.extractLsb'_append_eq_left

theorem Response.port_result (v u : Word) : (Response.port u (.ok v)).extractLsb' 0 64 = v :=
  BitVec.extractLsb'_append_eq_right

/-- The host reads the status, and for `OK` the result. -/
theorem Response.ofPort_port (r : Response) (u : Word) : ofPort (r.port u) = r := by
  rw [ofPort, Response.port_st]
  cases r with
  | ok v => exact congrArg Response.ok (port_result v u)
  | failed f => cases f <;> rfl

/-- Settles O16: the two fields of the 66 bits are read back, and each status has its own code. -/
theorem theResponsePortCarriesTheResponse : Obligations.TheResponsePortCarriesTheResponse := by
  refine fun r u => ⟨r.port_st u, r.ofPort_port u, ?_, ?_, ?_, ?_⟩
  · rintro v rfl
    exact ⟨rfl, Response.port_result v u⟩
  · rintro rfl
    rfl
  · rintro rfl
    rfl
  · rintro rfl
    rfl

end Sys2Proof.Machine
end

section
/-! The zero test (41_word_decode.md R121) and special words (30_encoding.md R63). -/

namespace Sys2Proof.Machine

/-- Comparing with a word that the bit test accepts adds nothing to the bit test. -/
theorem isZeroWith_iff {zc : Word} (hcc : cc zc = 0) (hzsub : zsub zc = 0) (w : Word) :
    isZeroWith zc w = true ↔ cc w = 0 ∧ zsub w = 0 := by
  simp only [isZeroWith, Bool.or_eq_true, Bool.and_eq_true, beq_iff_eq]
  refine or_iff_right_of_imp ?_
  rintro rfl
  exact ⟨hcc, hzsub⟩

/-- A word tests zero when its groups and the low three bits of its combination field are all zero. -/
theorem isZero_iff_fields (w : Word) : isZero w = true ↔ cc w = 0 ∧ zsub w = 0 :=
  isZeroWith_iff (by decide) (by decide) w

/-- Settles O29: with either constant the test is the bit test. -/
theorem zeroConstIsUnobservable : Obligations.ZeroConstIsUnobservable := by
  intro zc w hcc hzsub
  exact ⟨Bool.eq_iff_iff.mpr ((isZeroWith_iff hcc hzsub w).trans (isZero_iff_fields w).symm), isZero_iff_fields w⟩

/-- The combination fields 30 and 31 end in 110 and 111. -/
theorem isZero_of_special {w : Word} (hs : special w = true) : isZero w = false := by
  have hfield : ∀ c : BitVec 5, 30 ≤ c.toNat → c.extractLsb' 0 3 ≠ 0 := by decide
  have hzsub : zsub w ≠ 0 := by
    rw [zsub_eq_extractLsb'_cf]
    exact hfield _ (by simpa [special] using hs)
  rw [Bool.eq_false_iff, ne_eq, isZero_iff_fields]
  rintro ⟨-, hzero⟩
  exact hzsub hzero

/-- Settles O14: the refusing operations test for a special word first, and a special word does not test zero. -/
theorem specialWordsAreUnsupported : Obligations.SpecialWordsAreUnsupported := by
  intro s w hs
  have hz := isZero_of_special hs
  refine ⟨exec_of_special s hs, ?_, ?_, ?_⟩
  · rw [exec_eq_answered, responseTo, hz]
    rfl
  · rw [exec_eq_answered, responseTo, ret_eq_ok]
  · rw [exec_zfix, zfix_of_not_isZero hz]

end Sys2Proof.Machine
end

section
/-! The canonical group of three digits: the least group that decodes to them, and the group of the eight printed cases
(40_tables.md R101). -/

namespace Sys2Proof.Machine

/-! ### The search -/

/-- The search answers the least group that decodes to the digits. -/
theorem State.bcd2dpd_eq_of_least {s : State} {d : Digits3} {g : Group} (hg : s.dpdDigits g = d)
    (hleast : ∀ g' : Group, s.dpdDigits g' = d → g.toNat ≤ g'.toNat) : s.bcd2dpd d = g := by
  have hlength : s.romDpd.toList.length = 1024 := s.romDpd.length_toList
  have hindex : s.romDpd.toList.findIdx (fun x => x.extractLsb' 0 12 == d) = g.toNat := by
    rw [List.findIdx_eq (by rw [hlength]; exact g.isLt)]
    refine ⟨by simpa [State.dpdDigits, State.dpdEntry] using hg, fun j hj => ?_⟩
    have hlt : j < 1024 := Nat.lt_trans hj g.isLt
    have hno : s.dpdDigits (BitVec.ofNat 10 j) ≠ d := by
      intro hj'
      have hle := hleast _ hj'
      rw [BitVec.toNat_ofNat, Nat.mod_eq_of_lt hlt] at hle
      omega
    simpa [State.dpdDigits, State.dpdEntry, Nat.mod_eq_of_lt hlt] using hno
  rw [State.bcd2dpd, hindex, BitVec.ofNat_toNat, BitVec.setWidth_eq]

/-! ### The eight cases -/

/-- The group of the eight cases decodes to the digits, for all 1000 valid triples. -/
theorem dpdByRule_dpdEncodeByRule :
    ∀ {d : Digits3}, validDigits d 3 = true → dpdByRule (dpdEncodeByRule d) = d := by
  decide +kernel

/-- Encoding the digits of a group gives the group made canonical, for all 1024 groups. -/
theorem dpdEncodeByRule_dpdByRule : ∀ g : Group, dpdEncodeByRule (dpdByRule g) = canonicalize g := by
  decide +kernel

theorem canonicalize_of_nonCanonical {g : Group} (h : nonCanonical g = true) :
    canonicalize g = 0#2 ++ g.extractLsb' 0 8 := if_pos h

theorem canonicalize_of_canonical {g : Group} (h : nonCanonical g = false) : canonicalize g = g :=
  if_neg (by simp [h])

/-- Making a group canonical clears bits. -/
theorem canonicalize_toNat_le (g : Group) : (canonicalize g).toNat ≤ g.toNat := by
  cases h : nonCanonical g with
  | false => exact Nat.le_of_eq (congrArg BitVec.toNat (canonicalize_of_canonical h))
  | true =>
    rw [canonicalize_of_nonCanonical h, BitVec.toNat_append, BitVec.extractLsb'_toNat]
    simp only [BitVec.toNat_ofNat, Nat.shiftRight_zero, Nat.zero_mod, Nat.zero_shiftLeft, Nat.zero_or]
    exact Nat.mod_le ..

/-- Bits 9..8 of a non-canonical group are not both 0, so clearing them changes it. -/
theorem canonicalize_eq_self_iff (g : Group) : canonicalize g = g ↔ nonCanonical g = false := by
  refine ⟨fun heq => ?_, canonicalize_of_canonical⟩
  cases h : nonCanonical g with
  | false => rfl
  | true =>
    have hhigh : g.extractLsb' 8 2 ≠ 0 := by
      simp only [nonCanonical, Bool.and_eq_true, bne_iff_ne] at h
      obtain ⟨-, hhigh⟩ := h
      exact hhigh
    rw [canonicalize_of_nonCanonical h] at heq
    exact absurd (heq ▸ BitVec.extractLsb'_append_eq_left) hhigh

theorem canonicalize_dpdEncodeByRule {d : Digits3} (hd : validDigits d 3 = true) :
    canonicalize (dpdEncodeByRule d) = dpdEncodeByRule d := by
  rw [← dpdEncodeByRule_dpdByRule, dpdByRule_dpdEncodeByRule hd]

/-- The group of the eight cases is the least of those that decode to the digits. -/
theorem dpdEncodeByRule_least {d : Digits3} {g : Group} (hg : dpdByRule g = d) :
    (dpdEncodeByRule d).toNat ≤ g.toNat := by
  rw [← hg, dpdEncodeByRule_dpdByRule]
  exact canonicalize_toNat_le g

/-! ### With the table loaded -/

namespace State.TablesLoaded

variable {s : State} (h : s.TablesLoaded) {d : Digits3} (hd : validDigits d 3 = true)
include h

theorem dpdEncodeByRule_toNat_le (g : Group) (hg : s.dpdDigits g = d) : (dpdEncodeByRule d).toNat ≤ g.toNat :=
  dpdEncodeByRule_least (h.dpdDigits g ▸ hg)

include hd

theorem dpdDigits_dpdEncodeByRule : s.dpdDigits (dpdEncodeByRule d) = d := by
  rw [h.dpdDigits, dpdByRule_dpdEncodeByRule hd]

theorem bcd2dpd : s.bcd2dpd d = dpdEncodeByRule d :=
  State.bcd2dpd_eq_of_least (h.dpdDigits_dpdEncodeByRule hd) h.dpdEncodeByRule_toNat_le

theorem exec_bcd2dpd :
    exec (.bcd2dpd d) s = .next (s.answered (.ok ((dpdEncodeByRule d).setWidth 64))) := by
  rw [exec_eq_answered, responseTo, bcd2dpdResponse, if_neg (by simp [hd]), h.bcd2dpd hd, ret_eq_ok]

end State.TablesLoaded

theorem State.TablesLoaded.bcd2dpd_dpdByRule {s : State} (h : s.TablesLoaded) (g : Group) :
    s.bcd2dpd (dpdByRule g) = canonicalize g := by
  rw [h.bcd2dpd (validDigits_dpdByRule g), dpdEncodeByRule_dpdByRule]

theorem State.TablesLoaded.exec_dpd2bcd {s : State} (h : s.TablesLoaded) (g : Group) :
    exec (.dpd2bcd g) s = .next (s.answered (.ok ((dpdByRule g).setWidth 64))) := by
  obtain ⟨hexec, -⟩ := dpd2bcdAnswersTheDigits s g h
  exact hexec

theorem exec_bcd2dpd_of_badDigit (s : State) {d : Digits3} (hd : validDigits d 3 = false) :
    exec (.bcd2dpd d) s = .next (s.answered (.failed .invalidEncoding)) := by
  rw [exec_eq_answered, responseTo, bcd2dpdResponse, if_pos (by simp [hd]), raise_eq_failed]

/-- Settles O22: the group of the eight cases is the least one, which is what the search finds. -/
theorem bcd2dpdAnswersTheLeastGroup : Obligations.Bcd2dpdAnswersTheLeastGroup := fun s _ h =>
  ⟨fun hd => ⟨h.exec_bcd2dpd hd, h.dpdDigits_dpdEncodeByRule hd, h.dpdEncodeByRule_toNat_le⟩,
    exec_bcd2dpd_of_badDigit s⟩

/-- Settles O23: the eight cases of R101 and those of R31 are inverse to each other, up to the bits that
`canonicalize` clears. -/
theorem dpdAndBcdRoundTrip : Obligations.DpdAndBcdRoundTrip := by
  refine fun s h => ⟨fun d hd => ⟨dpdEncodeByRule d, h.exec_bcd2dpd hd, ?_⟩, fun g =>
    ⟨dpdByRule g, h.exec_dpd2bcd g, ?_, canonicalize_eq_self_iff g⟩⟩
  · rw [h.exec_dpd2bcd, dpdByRule_dpdEncodeByRule hd]
  · rw [h.exec_bcd2dpd (validDigits_dpdByRule g), dpdEncodeByRule_dpdByRule]

end Sys2Proof.Machine
end

section
/-! The digits that the block reads of a word are its coefficient by the format (30_encoding.md R65), but for the words of
the anomaly (41_word_decode.md R129 b). -/

namespace Sys2Proof.Machine

/-! ### The value of a stream, three digits at a time -/

theorem digits3Value_block (b : Word) (j : Nat) : digits3Value (b.extractLsb' (12 * j) 12)
    = (nibble b (3 * j + 2)).toNat * 100 + (nibble b (3 * j + 1)).toNat * 10 + (nibble b (3 * j)).toNat := by
  rw [digits3Value, nibble_extractLsb' b j (by decide), nibble_extractLsb' b j (by decide),
    nibble_extractLsb' b j (by decide)]
  rfl

theorem bcdValue_eq_blocks (b : Word) :
    bcdValue b = (nibble b 15).toNat * 10 ^ 15 + digits3Value (b.extractLsb' (12 * 4) 12) * 10 ^ 12
      + digits3Value (b.extractLsb' (12 * 3) 12) * 10 ^ 9 + digits3Value (b.extractLsb' (12 * 2) 12) * 10 ^ 6
      + digits3Value (b.extractLsb' (12 * 1) 12) * 10 ^ 3 + digits3Value (b.extractLsb' (12 * 0) 12) := by
  simp only [digits3Value_block]
  simp only [bcdValue, bcdValueLow, Nat.reduceMul, Nat.reduceAdd]
  omega

/-- The stream `b` holds the leading digit and the three digits of each group of the word `w`. -/
structure HoldsDigitsOf (w b : Word) : Prop where
  lead : fieldLead (cf w) = (nibble b 15).toNat
  block : ∀ j < 5, dpdByRule (grp w (4 - j)) = b.extractLsb' (12 * j) 12

theorem HoldsDigitsOf.formatCoefficient {w b : Word} (h : HoldsDigitsOf w b) : formatCoefficient w = bcdValue b := by
  rw [bcdValue_eq_blocks, ← h.lead, ← h.block 4 (by decide), ← h.block 3 (by decide), ← h.block 2 (by decide),
    ← h.block 1 (by decide), ← h.block 0 (by decide)]
  rfl

/-- A stream is its leading digit and its five blocks of three digits. -/
theorem stream_blocks (b : Word) :
    nibble b 15 ++ b.extractLsb' (12 * 4) 12 ++ b.extractLsb' (12 * 3) 12 ++ b.extractLsb' (12 * 2) 12
      ++ b.extractLsb' (12 * 1) 12 ++ b.extractLsb' (12 * 0) 12 = b := by
  unfold nibble
  rw [BitVec.extractLsb'_append_extractLsb'_eq_extractLsb' (by rfl),
    BitVec.extractLsb'_append_extractLsb'_eq_extractLsb' (by rfl),
    BitVec.extractLsb'_append_extractLsb'_eq_extractLsb' (by rfl),
    BitVec.extractLsb'_append_extractLsb'_eq_extractLsb' (by rfl),
    BitVec.extractLsb'_append_extractLsb'_eq_extractLsb' (by rfl)]
  exact BitVec.extractLsb'_eq_self

theorem stream_ext {b b' : Word} (hlead : nibble b 15 = nibble b' 15)
    (hblock : ∀ j < 5, b.extractLsb' (12 * j) 12 = b'.extractLsb' (12 * j) 12) : b = b' := by
  rw [← stream_blocks b, ← stream_blocks b', hlead, hblock 4 (by decide), hblock 3 (by decide), hblock 2 (by decide),
    hblock 1 (by decide), hblock 0 (by decide)]

theorem HoldsDigitsOf.unique {w b b' : Word} (h : HoldsDigitsOf w b) (h' : HoldsDigitsOf w b') : b = b' :=
  stream_ext (BitVec.eq_of_toNat_eq (h.lead.symm.trans h'.lead)) fun j hj => (h.block j hj).symm.trans (h'.block j hj)

/-! ### Zeros and the anomaly -/

theorem extractLsb'_of_zero {n start len : Nat} : (0 : BitVec n).extractLsb' start len = 0 := BitVec.extractLsb'_zero

theorem grp_eq_extractLsb'_cc (w : Word) {k : Nat} (hk : k < 5) : grp w k = (cc w).extractLsb' (40 - 10 * k) 10 := by
  rw [cc, extractLsb'_extractLsb'_of_add_le w (by omega), grp, Nat.zero_add]

theorem grp_eq_zero_of_cc_eq_zero {w : Word} (hcc : cc w = 0) {k : Nat} (hk : k < 5) : grp w k = 0 := by
  rw [grp_eq_extractLsb'_cc w hk, hcc, extractLsb'_of_zero]

theorem readsAsZeroAnomaly_iff (w : Word) : readsAsZeroAnomaly w = true ↔ cf w = 24 ∧ cc w = 0 := by
  simp [readsAsZeroAnomaly]

/-- A combination field that the zero test accepts names the digit 0, all but field 24, which names 8. -/
theorem fieldLead_of_zsub : ∀ {c : BitVec 5}, c.toNat < 30 → c.extractLsb' 0 3 = 0 → c ≠ 24 → fieldLead c = 0 := by
  decide

theorem isZero_of_anomaly {w : Word} (ha : readsAsZeroAnomaly w = true) : isZero w = true := by
  obtain ⟨hcf, hcc⟩ := (readsAsZeroAnomaly_iff w).mp ha
  have hzsub : zsub w = 0 := by
    rw [zsub_eq_extractLsb'_cf, hcf]
    decide
  exact (isZero_iff_fields w).mpr ⟨hcc, hzsub⟩

theorem formatCoefficient_of_anomaly {w : Word} (ha : readsAsZeroAnomaly w = true) :
    formatCoefficient w = 8000000000000000 := by
  obtain ⟨hcf, hcc⟩ := (readsAsZeroAnomaly_iff w).mp ha
  have hgrp : ∀ k < 5, grp w k = 0 := fun k hk => grp_eq_zero_of_cc_eq_zero hcc hk
  rw [formatCoefficient, hcf, hgrp 0 (by decide), hgrp 1 (by decide), hgrp 2 (by decide), hgrp 3 (by decide),
    hgrp 4 (by decide)]
  decide

/-- A zero that is no anomaly is a zero by the format too. -/
theorem holdsDigitsOf_zero {w : Word} (hs : special w = false) (hz : isZero w = true)
    (ha : readsAsZeroAnomaly w = false) : HoldsDigitsOf w 0 := by
  obtain ⟨hcc, hzsub⟩ := (isZero_iff_fields w).mp hz
  have hcf : cf w ≠ 24 := fun hcf => by
    rw [(readsAsZeroAnomaly_iff w).mpr ⟨hcf, hcc⟩] at ha
    cases ha
  refine ⟨fieldLead_of_zsub (cf_lt_of_not_special hs) (zsub_eq_extractLsb'_cf w ▸ hzsub) hcf, fun j hj => ?_⟩
  rw [grp_eq_zero_of_cc_eq_zero hcc (by omega), dpdByRule_zero, extractLsb'_of_zero]

/-! ### With the tables loaded -/

section
variable {s : State} (h : s.TablesLoaded) {w : Word} (hs : special w = false)
include h hs

/-- The digits that the block reads are those of the format. -/
theorem State.TablesLoaded.holdsDigitsOf_digits (ha : readsAsZeroAnomaly w = false) :
    HoldsDigitsOf w (s.digits w) := by
  cases hz : isZero w with
  | true => exact digits_of_isZero s w hz ▸ holdsDigitsOf_zero hs hz ha
  | false =>
    refine ⟨?_, fun j hj => ?_⟩
    · rw [← h.leadDigit_toNat hs, ← lead_of_digits s w hz]
      rfl
    · rw [block_of_digits s hz hj, h.dpdDigits]

theorem State.TablesLoaded.bcdValue_digits (ha : readsAsZeroAnomaly w = false) :
    bcdValue (s.digits w) = formatCoefficient w :=
  (h.holdsDigitsOf_digits hs ha).formatCoefficient.symm

end

/-- Settles O32: with the tables loaded the leading digit and the digits of every group are valid, and they are all zero
for the words that test zero only. -/
theorem decodedDigitsAreValidAndZeroOnlyForZero : Obligations.DecodedDigitsAreValidAndZeroOnlyForZero :=
  fun _ _ h hs => ⟨h.validDigits_digits hs, h.digits_eq_zero_iff hs⟩

theorem bcdValue_zero : bcdValue 0 = 0 := by
  decide

/-- Settles O33: the digits read are the format's, but a word of the anomaly tests zero where the format reads the
digit 8. -/
theorem coefficientIsTheFormatsButForTheAnomaly : Obligations.CoefficientIsTheFormatsButForTheAnomaly := by
  refine fun s w h hs => ⟨h.bcdValue_digits hs, fun ha => ⟨?_, formatCoefficient_of_anomaly ha⟩⟩
  rw [digits_of_isZero s w (isZero_of_anomaly ha), bcdValue_zero]

/-! ### The number of a word -/

/-- The host reads the digits, negated when `SIGNUM` answers -1. -/
theorem wordUnscaled_of_exec {s : State} {w d g : Word} (hd : exec (.xdig w) s = .next (s.answered (.ok d)))
    (hg : exec (.signum w) s = .next (s.answered (.ok g))) :
    wordUnscaled s w = some (if g.toInt < 0 then -(bcdValue d : Int) else bcdValue d) := by
  simp only [wordUnscaled, evaluate_of_exec s _ _ hd, evaluate_of_exec s _ _ hg]

theorem sign_eq_zero_of_ne_one {w : Word} (h : sign w ≠ 1) : sign w = 0 :=
  (BitVec.eq_zero_or_eq_one (sign w)).resolve_right h

/-- The host reads a negative number for the words with the sign bit set, but for the zeros, whose negation is zero. -/
theorem State.TablesLoaded.wordUnscaled_eq {s : State} (h : s.TablesLoaded) {w : Word} (hs : special w = false) :
    wordUnscaled s w
      = some (if sign w = 1 then -(bcdValue (s.digits w) : Int) else bcdValue (s.digits w)) := by
  have hd := exec_xdig s hs
  obtain ⟨-, hsignum⟩ := signumNeverLeaksANegativeZero s w h
  obtain ⟨hzero, hneg, hpos⟩ := hsignum hs
  cases hz : isZero w with
  | true =>
    rw [wordUnscaled_of_exec hd (hzero hz), digits_of_isZero s w hz, bcdValue_zero]
    simp
  | false =>
    by_cases hsign : sign w = 1
    · rw [wordUnscaled_of_exec hd (hneg hz hsign), if_pos (by decide), if_pos hsign]
    · rw [wordUnscaled_of_exec hd (hpos hz (sign_eq_zero_of_ne_one hsign)), if_neg (by decide), if_neg hsign]

/-- Settles O37: digits, sign and exponent are the format's. -/
theorem theBlockReportsTheNumberOfAWord : Obligations.TheBlockReportsTheNumberOfAWord := by
  refine fun s w h hs ha => ⟨?_, ?_⟩
  · rw [h.wordUnscaled_eq hs, h.bcdValue_digits hs ha]
    rfl
  · rw [exec_uexp s hs, h.bexp_toNat hs]
    rfl

end Sys2Proof.Machine
end

section
/-! What `encode_word` builds with the tables loaded (42_word_encode.md R140), and that its fields determine a word
(30_encoding.md R60). -/

namespace Sys2Proof.Machine

/-! ### A word is determined by its fields -/

theorem word_ext {w w' : Word} (hsign : sign w = sign w') (hcf : cf w = cf w') (hec : ec w = ec w')
    (hgrp : ∀ k < 5, grp w k = grp w' k) : w = w' := by
  rw [← word_fields w, ← word_fields w', hsign, hcf, hec, hgrp 0 (by decide), hgrp 1 (by decide), hgrp 2 (by decide),
    hgrp 3 (by decide), hgrp 4 (by decide)]

theorem special_eq_false_iff (w : Word) : special w = false ↔ (cf w).toNat < 30 := by
  simp [special]

/-- A word put together from its fields. -/
def mkWord (sg : BitVec 1) (c : BitVec 5) (e : BitVec 8) (m : BitVec 50) : Word := sg ++ c ++ e ++ m

section
variable (sg : BitVec 1) (c : BitVec 5) (e : BitVec 8) (m : BitVec 50)

theorem sign_mkWord : sign (mkWord sg c e m) = sg := by
  show @BitVec.extractLsb' (1 + 5 + 8 + 50) 63 1 (sg ++ c ++ e ++ m) = sg
  rw [BitVec.extractLsb'_append_eq_of_le (by omega), BitVec.extractLsb'_append_eq_of_le (by omega)]
  exact BitVec.extractLsb'_append_eq_left

theorem cf_mkWord : cf (mkWord sg c e m) = c := by
  show @BitVec.extractLsb' (1 + 5 + 8 + 50) 58 5 (sg ++ c ++ e ++ m) = c
  rw [BitVec.extractLsb'_append_eq_of_le (by omega), BitVec.extractLsb'_append_eq_of_le (by omega)]
  exact BitVec.extractLsb'_append_eq_right

theorem ec_mkWord : ec (mkWord sg c e m) = e := by
  show @BitVec.extractLsb' (1 + 5 + 8 + 50) 50 8 (sg ++ c ++ e ++ m) = e
  rw [BitVec.extractLsb'_append_eq_of_le (by omega)]
  exact BitVec.extractLsb'_append_eq_right

theorem cc_mkWord : cc (mkWord sg c e m) = m := BitVec.extractLsb'_append_eq_right

end

/-! ### The operands of `encode_word` -/

/-- Of a valid stream every block of three digits is valid. -/
theorem validDigits_block {b : Word} (hb : validDigits b 16 = true) {j : Nat} (hj : j < 5) :
    validDigits (b.extractLsb' (12 * j) 12) 3 = true := by
  rw [validDigits_iff] at hb ⊢
  intro i hi
  rw [nibble_extractLsb' b j hi]
  exact hb _ (by omega)

theorem leadNibble_le_nine {b : Word} (hb : validDigits b 16 = true) : (nibble b 15).toNat ≤ 9 :=
  (validDigits_iff b).mp hb 15 (by decide)

/-- The two high bits of a biased exponent in the window are not 11. -/
theorem highBits_ne_three {x : BitVec 10} (hx : x.toNat ≤ 767) : x.extractLsb' 8 2 ≠ 3 := by
  intro hhigh
  have hvalue := congrArg BitVec.toNat hhigh
  rw [BitVec.extractLsb'_toNat, Nat.shiftRight_eq_div_pow] at hvalue
  change x.toNat / 2 ^ 8 % 2 ^ 2 = 3 at hvalue
  omega

/-- The ten bits of a biased exponent in the window hold its value. -/
theorem exponentBits_toNat {x : BitVec 32} (hlo : 0 ≤ x.toInt) (hhi : x.toInt ≤ 767) :
    ((x.extractLsb' 0 10).toNat : Int) = x.toInt := by
  have hvalue := BitVec.toInt_eq_toNat_cond x
  have hlt := x.isLt
  rw [BitVec.extractLsb'_toNat, Nat.shiftRight_zero]
  split at hvalue <;> omega

/-! ### The fields of the word -/

theorem grp_encodeWord (s : State) (sg : BitVec 1) (x : BitVec 10) (b : Word) {j : Nat} (hj : j < 5) :
    grp (s.encodeWord sg x b) (4 - j) = s.bcd2dpd (b.extractLsb' (12 * j) 12) := by
  match j, hj with
  | 0, _ => exact grp4_encodeWord s sg x b
  | 1, _ => exact grp3_encodeWord s sg x b
  | 2, _ => exact grp2_encodeWord s sg x b
  | 3, _ => exact grp1_encodeWord s sg x b
  | 4, _ => exact grp0_encodeWord s sg x b

theorem cf_encodeWord_eq_comboenc (s : State) (sg : BitVec 1) (x : BitVec 10) (b : Word) :
    cf (s.encodeWord sg x b) = comboenc (nibble b 15) (x.extractLsb' 8 2) := cf_encodeWord s sg x b

section
variable (s : State) (sg : BitVec 1) {x : BitVec 10} (hx : x.toNat ≤ 767) {b : Word} (hb : validDigits b 16 = true)
include hx hb

theorem fieldLead_encodeWord : fieldLead (cf (s.encodeWord sg x b)) = (nibble b 15).toNat := by
  obtain ⟨hlead, -, -⟩ := fields_comboenc (highBits_ne_three hx) (leadNibble_le_nine hb)
  rw [cf_encodeWord_eq_comboenc, hlead]

theorem fieldExphi_encodeWord : fieldExphi (cf (s.encodeWord sg x b)) = (x.extractLsb' 8 2).toNat := by
  obtain ⟨-, hexphi, -⟩ := fields_comboenc (highBits_ne_three hx) (leadNibble_le_nine hb)
  rw [cf_encodeWord_eq_comboenc, hexphi]

theorem special_encodeWord : special (s.encodeWord sg x b) = false := by
  obtain ⟨-, -, hlt⟩ := fields_comboenc (highBits_ne_three hx) (leadNibble_le_nine hb)
  rwa [special_eq_false_iff, cf_encodeWord_eq_comboenc]

theorem formatBexp_encodeWord : formatBexp (s.encodeWord sg x b) = x.toNat := by
  rw [formatBexp, fieldExphi_encodeWord s sg hx hb, ec_encodeWord, BitVec.extractLsb'_toNat, BitVec.extractLsb'_toNat,
    Nat.shiftRight_eq_div_pow, Nat.shiftRight_zero]
  omega

end

/-! ### With the table loaded -/

namespace State.TablesLoaded

variable {s : State} (h : s.TablesLoaded) (sg : BitVec 1) {x : BitVec 10} {b : Word} (hb : validDigits b 16 = true)
include h hb

theorem grp_encodeWord {j : Nat} (hj : j < 5) :
    grp (s.encodeWord sg x b) (4 - j) = dpdEncodeByRule (b.extractLsb' (12 * j) 12) := by
  rw [Machine.grp_encodeWord s sg x b hj, h.bcd2dpd (validDigits_block hb hj)]

/-- Every group of the word is canonical. -/
theorem canonicalize_grp_encodeWord {k : Nat} (hk : k < 5) :
    canonicalize (grp (s.encodeWord sg x b) k) = grp (s.encodeWord sg x b) k := by
  have hj : 4 - k < 5 := by omega
  rw [← Nat.sub_sub_self (Nat.le_of_lt_succ hk), h.grp_encodeWord sg hb hj,
    canonicalize_dpdEncodeByRule (validDigits_block hb hj)]

variable (hx : x.toNat ≤ 767)
include hx

/-- The word has, by the format, the digits it was built from. -/
theorem holdsDigitsOf_encodeWord : HoldsDigitsOf (s.encodeWord sg x b) b where
  lead := fieldLead_encodeWord s sg hx hb
  block j hj := by rw [h.grp_encodeWord sg hb hj, dpdByRule_dpdEncodeByRule (validDigits_block hb hj)]

end State.TablesLoaded

/-- Settles O40: each field of the word is read back, and the combination field is that of a digit with exponent bits other
than 11, which is below 30. -/
theorem encbcdBuildsTheWord : Obligations.EncbcdBuildsTheWord := by
  intro s sg x b h hw hlo hhi hb
  have hbits := exponentBits_toNat hlo hhi
  have hx : (x.extractLsb' 0 10).toNat ≤ 767 := by omega
  refine ⟨_, exec_encbcd s hw hlo hhi sg hb, sign_encodeWord .., ?_, fieldLead_encodeWord s sg hx hb,
    special_encodeWord s sg hx hb, fun k hk => ?_⟩
  · rw [formatBexp_encodeWord s sg hx hb, hbits]
  · have hgrp := h.grp_encodeWord sg (x := x.extractLsb' 0 10) hb (j := 4 - k) (by omega)
    rwa [Nat.sub_sub_self (by omega), show 12 * (4 - k) = 48 - 12 * k by omega] at hgrp

end Sys2Proof.Machine
end

section
/-! The BCD stream of a number and `ENCLONG` (42_word_encode.md R143). -/

namespace Sys2Proof.Machine

/-! ### The digits of a number, packed -/

theorem bcdDigitsLow_lt (m n : Nat) : bcdDigitsLow m n < 16 ^ n := by
  induction n with
  | zero => exact Nat.one_pos
  | succ n ih =>
    have hdigit : m / 10 ^ n % 10 * 16 ^ n ≤ 9 * 16 ^ n := Nat.mul_le_mul_right _ (by omega)
    rw [bcdDigitsLow, Nat.pow_succ]
    omega

/-- Place `k` in base 16 is digit `k` in base 10. -/
theorem bcdDigitsLow_digit (m : Nat) {n k : Nat} (hk : k < n) :
    bcdDigitsLow m n / 16 ^ k % 16 = m / 10 ^ k % 10 := by
  induction n with
  | zero => omega
  | succ n ih =>
    have hpos : 0 < 16 ^ k := Nat.pow_pos (by decide)
    rw [bcdDigitsLow]
    by_cases htop : k = n
    · subst htop
      rw [Nat.add_mul_div_right _ _ hpos, Nat.div_eq_of_lt (bcdDigitsLow_lt m k)]
      omega
    · have hsplit : 16 ^ n = 16 * 16 ^ (n - k - 1) * 16 ^ k := by
        rw [← Nat.pow_succ', ← Nat.pow_add]
        congr 1
        omega
      rw [hsplit, ← Nat.mul_assoc, Nat.add_mul_div_right _ _ hpos, Nat.mul_left_comm, Nat.add_mul_mod_self_left]
      exact ih (by omega)

theorem nibble_bcdOf (m : Nat) {k : Nat} (hk : k < 16) : (nibble (bcdOf m) k).toNat = m / 10 ^ k % 10 := by
  have hlt : bcdDigitsLow m 16 < 2 ^ 64 := bcdDigitsLow_lt m 16
  rw [nibble, BitVec.extractLsb'_toNat, bcdOf, BitVec.toNat_ofNat, Nat.mod_eq_of_lt hlt, Nat.shiftRight_eq_div_pow,
    Nat.pow_mul]
  exact bcdDigitsLow_digit m hk

theorem validDigits_bcdOf (m : Nat) : validDigits (bcdOf m) 16 = true := by
  rw [validDigits_iff]
  intro k hk
  rw [nibble_bcdOf m hk]
  omega

theorem bcdValueLow_bcdOf (m : Nat) {n : Nat} (hn : n ≤ 16) : bcdValueLow (bcdOf m) n = m % 10 ^ n := by
  induction n with
  | zero => simp [bcdValueLow, Nat.mod_one]
  | succ n ih =>
    rw [bcdValueLow, ih (by omega), nibble_bcdOf m (by omega), Nat.pow_succ, Nat.mod_mul, Nat.mul_comm (10 ^ n)]

theorem bcdValue_bcdOf {m : Nat} (hm : m ≤ 9999999999999999) : bcdValue (bcdOf m) = m := by
  rw [bcdValue, bcdValueLow_bcdOf m (Nat.le_refl 16), Nat.mod_eq_of_lt (by omega)]

/-! ### The operation -/

theorem exec_enclong (s : State) {x : BitVec 32} {n : Word} (hw : s.hwAvail = true) (hlo : 0 ≤ x.toInt)
    (hhi : x.toInt ≤ 767) (hn : n.toInt.natAbs ≤ 9999999999999999) :
    exec (.enclong x n) s = .next (s.answered (.ok (s.encodeWord (BitVec.ofBool (n.toInt < 0)) (x.extractLsb' 0 10)
      (bcdOf n.toInt.natAbs)))) := by
  have hx := exponentOutside_eq_false hlo hhi
  rw [exec_eq_answered, responseTo, enclongResponse, if_neg (by simp [hw]), if_neg (by simp [hx]), if_neg (by omega),
    ret_word]

theorem exec_enclong_of_wide (s : State) (x : BitVec 32) {n : Word} (hn : 9999999999999999 < n.toInt.natAbs) :
    exec (.enclong x n) s = .next (s.answered (.failed .unsupported)) := by
  simp only [exec_eq_answered, responseTo, enclongResponse, if_pos hn, raise_eq_failed, ite_self]

theorem ofBool_decide (p : Prop) [Decidable p] : BitVec.ofBool (decide p) = if p then 1 else 0 := by
  by_cases hp : p
  · rw [if_pos hp, decide_eq_true hp]
    rfl
  · rw [if_neg hp, decide_eq_false hp]
    rfl

/-- Settles O41: the stream is `bcdOf` of the magnitude, and all four checks fail with the same status. -/
theorem enclongEncodesTheMagnitude : Obligations.EnclongEncodesTheMagnitude := by
  refine fun s x n => ⟨fun hw hlo hhi hn => ?_, fun hout => ?_⟩
  · refine ⟨bcdOf n.toInt.natAbs, _, bcdValue_bcdOf hn, validDigits_bcdOf _, exec_enclong s hw hlo hhi hn, ?_⟩
    rw [exec_encbcd s hw hlo hhi _ (validDigits_bcdOf _), ofBool_decide]
  · have hsplit : (s.hwAvail = false ∨ x.toInt < 0 ∨ 767 < x.toInt) ∨ 9999999999999999 < n.toInt.natAbs := by
      simpa only [or_assoc] using hout
    rcases hsplit with hshared | hn
    · exact exec_constructor_of_unsupported s 0 n hshared _ (by simp [constructors])
    · exact exec_enclong_of_wide s x hn

end Sys2Proof.Machine
end

section
/-! The constructors build canonical words (30_encoding.md R63, R78, 42_word_encode.md R140). -/

namespace Sys2Proof.Machine

/-- An operation in a state has one response. -/
theorem response_unique {s : State} {i : Instr} {r r' : Response} (h : exec i s = .next (s.answered r))
    (h' : exec i s = .next (s.answered r')) : r = r' := by
  rw [h] at h'
  injection h' with hstate
  exact Option.some.inj (congrArg State.response hstate)

/-- A constructor that succeeds has passed the two shared checks. -/
theorem constructor_checks {s : State} {sg : BitVec 1} {x : BitVec 32} {a w : Word} {i : Instr}
    (hi : i ∈ constructors sg x a) (hr : exec i s = .next (s.answered (.ok w))) :
    s.hwAvail = true ∧ 0 ≤ x.toInt ∧ x.toInt ≤ 767 := by
  refine Decidable.byContradiction fun hfail => ?_
  have hout : s.hwAvail = false ∨ x.toInt < 0 ∨ 767 < x.toInt := by
    cases hw : s.hwAvail with
    | false => exact .inl rfl
    | true =>
      simp only [hw, true_and] at hfail
      omega
  cases response_unique hr (exec_constructor_of_unsupported s sg a hout i hi)

/-- Whatever a constructor answers is the word of a valid stream with a biased exponent in the window. -/
theorem exists_encodeWord_of_constructor {s : State} {sg : BitVec 1} {x : BitVec 32} {a w : Word} {i : Instr}
    (hi : i ∈ constructors sg x a) (hr : exec i s = .next (s.answered (.ok w))) :
    ∃ (sg' : BitVec 1) (x' : BitVec 10) (b : Word),
      validDigits b 16 = true ∧ x'.toNat ≤ 767 ∧ s.encodeWord sg' x' b = w := by
  obtain ⟨hw, hlo, hhi⟩ := constructor_checks hi hr
  have hx : (x.extractLsb' 0 10).toNat ≤ 767 := by
    have hbits := exponentBits_toNat hlo hhi
    omega
  obtain rfl | rfl | rfl : i = .encbcd sg x a ∨ i = .enclong x a ∨ i = .encpd x a := by
    simpa [constructors] using hi
  · cases hb : validDigits a 16 with
    | true => exact ⟨_, _, _, hb, hx, Response.ok.inj (response_unique (exec_encbcd s hw hlo hhi sg hb) hr)⟩
    | false => cases response_unique (exec_encbcd_of_badDigit s hw hlo hhi sg hb) hr
  · by_cases hn : a.toInt.natAbs ≤ 9999999999999999
    · exact ⟨_, _, _, validDigits_bcdOf _, hx, Response.ok.inj (response_unique (exec_enclong s hw hlo hhi hn) hr)⟩
    · cases response_unique (exec_enclong_of_wide s x (Nat.lt_of_not_le hn)) hr
  · cases hp : validDigits (a.extractLsb' 4 60) 15 with
    | true =>
      exact ⟨_, _, _, validDigits_setWidth hp, hx, Response.ok.inj (response_unique (exec_encpd s hw hlo hhi hp) hr)⟩
    | false => cases response_unique (exec_encpd_of_badDigit s hw hlo hhi hp) hr

/-- The bits above the groups are the sign, the combination field and the exponent continuation. -/
theorem highFields_eq_extractLsb' (w : Word) : sign w ++ cf w ++ ec w = w.extractLsb' 50 14 := by
  unfold sign cf ec
  rw [BitVec.extractLsb'_append_extractLsb'_eq_extractLsb' (by rfl),
    BitVec.extractLsb'_append_extractLsb'_eq_extractLsb' (by rfl)]

theorem canonicalWord_eq_self {w : Word} (hgrp : ∀ k < 5, canonicalize (grp w k) = grp w k) : canonicalWord w = w := by
  rw [canonicalWord, hgrp 0 (by decide), hgrp 1 (by decide), hgrp 2 (by decide), hgrp 3 (by decide),
    hgrp 4 (by decide), ← highFields_eq_extractLsb', word_fields]

/-- Settles O45: every constructor answers a word of `encode_word`, whose groups come from the eight cases of R101. -/
theorem constructorsBuildCanonicalWords : Obligations.ConstructorsBuildCanonicalWords := by
  rintro s t sg x a w h ⟨i, hi, hexec⟩ hresponse
  obtain rfl : s.answered (responseTo s i) = t := by simpa [exec_eq_answered] using hexec
  rw [Option.some.inj hresponse] at hexec
  obtain ⟨sg', x', b, hb, hx, rfl⟩ := exists_encodeWord_of_constructor hi hexec
  exact ⟨special_encodeWord s sg' hx hb, canonicalWord_eq_self fun k => h.canonicalize_grp_encodeWord sg' hb⟩

end Sys2Proof.Machine
end

section
/-! Reading back what was built and building again what was read (42_word_encode.md R147). -/

namespace Sys2Proof.Machine

/-! ### When a built word is one of the anomaly -/

theorem comboenc_eq_anomaly_iff : ∀ {digit : BitVec 4} {exphi : BitVec 2}, exphi ≠ 3 → digit.toNat ≤ 9 →
    (comboenc digit exphi = 24 ↔ digit = 8 ∧ exphi = 0) := by
  decide

theorem dpdEncodeByRule_zero : dpdEncodeByRule 0 = 0 := by
  decide

theorem dpdEncodeByRule_eq_zero_iff {d : Digits3} (hd : validDigits d 3 = true) : dpdEncodeByRule d = 0 ↔ d = 0 := by
  refine ⟨fun hzero => ?_, fun hzero => hzero ▸ dpdEncodeByRule_zero⟩
  rw [← dpdByRule_dpdEncodeByRule hd, hzero, dpdByRule_zero]

theorem cc_eq_zero_iff (w : Word) : cc w = 0 ↔ ∀ j < 5, grp w (4 - j) = 0 := by
  refine ⟨fun hcc j hj => grp_eq_zero_of_cc_eq_zero hcc (by omega), fun hgrp => ?_⟩
  rw [cc_eq_groups, hgrp 4 (by decide), hgrp 3 (by decide), hgrp 2 (by decide), hgrp 1 (by decide), hgrp 0 (by decide)]
  decide

theorem highBits_eq_zero_iff {x : BitVec 10} : x.extractLsb' 8 2 = 0 ↔ x.toNat < 256 := by
  have hlt := x.isLt
  rw [← BitVec.toNat_inj, BitVec.extractLsb'_toNat, Nat.shiftRight_eq_div_pow]
  show x.toNat / 2 ^ 8 % 2 ^ 2 = 0 ↔ x.toNat < 256
  omega

/-- The stream of the digit 8 and fifteen zeros. -/
theorem eq_eightZeros_iff (b : Word) :
    b = 0x8000000000000000 ↔ nibble b 15 = 8 ∧ ∀ j < 5, b.extractLsb' (12 * j) 12 = 0 := by
  have hblock : ∀ j < 5, (0x8000000000000000 : Word).extractLsb' (12 * j) 12 = 0 := by decide
  refine ⟨?_, fun ⟨hlead, hzero⟩ => stream_ext hlead fun j hj => (hzero j hj).trans (hblock j hj).symm⟩
  rintro rfl
  exact ⟨rfl, hblock⟩

section
variable {s : State} (h : s.TablesLoaded) (sg : BitVec 1) {x : BitVec 10} (hx : x.toNat ≤ 767) {b : Word}
  (hb : validDigits b 16 = true)
include h hx hb

theorem State.TablesLoaded.anomaly_encodeWord_iff :
    readsAsZeroAnomaly (s.encodeWord sg x b) = true ↔ b = 0x8000000000000000 ∧ x.toNat < 256 := by
  have hcf : cf (s.encodeWord sg x b) = 24 ↔ nibble b 15 = 8 ∧ x.toNat < 256 := by
    rw [cf_encodeWord_eq_comboenc, comboenc_eq_anomaly_iff (highBits_ne_three hx) (leadNibble_le_nine hb),
      highBits_eq_zero_iff]
  have hcc : cc (s.encodeWord sg x b) = 0 ↔ ∀ j < 5, b.extractLsb' (12 * j) 12 = 0 := by
    rw [cc_eq_zero_iff]
    refine forall₂_congr fun j hj => ?_
    rw [h.grp_encodeWord sg hb hj, dpdEncodeByRule_eq_zero_iff (validDigits_block hb hj)]
  rw [readsAsZeroAnomaly_iff, hcf, hcc, eq_eightZeros_iff, and_right_comm]

/-- The digits read are those the word was built from, unless the word is one of the anomaly. -/
theorem State.TablesLoaded.digits_encodeWord :
    s.digits (s.encodeWord sg x b) = if b = 0x8000000000000000 ∧ x.toNat < 256 then 0 else b := by
  have hiff := h.anomaly_encodeWord_iff sg hx hb
  by_cases ha : b = 0x8000000000000000 ∧ x.toNat < 256
  · rw [if_pos ha, digits_of_isZero _ _ (isZero_of_anomaly (hiff.mpr ha))]
  · have hno : readsAsZeroAnomaly (s.encodeWord sg x b) = false := Bool.eq_false_iff.mpr (mt hiff.mp ha)
    rw [if_neg ha]
    exact (h.holdsDigitsOf_digits (special_encodeWord s sg hx hb) hno).unique (h.holdsDigitsOf_encodeWord sg hb hx)

end

/-! ### Encode, then decode (R147 a) -/

/-- Settles O46: sign and exponent are read back from their fields, the digits but for the anomaly. -/
theorem encodeThenDecodeGivesTheParts : Obligations.EncodeThenDecodeGivesTheParts := by
  intro s sg x b h hw hlo hhi hb
  have hbits := exponentBits_toNat hlo hhi
  have hx : (x.extractLsb' 0 10).toNat ≤ 767 := by omega
  have hlt : (x.extractLsb' 0 10).toNat < 256 ↔ x.toInt < 256 := by omega
  have hs := special_encodeWord s sg hx hb
  refine ⟨_, exec_encbcd s hw hlo hhi sg hb, ?_, ?_, ?_⟩
  · rw [exec_eq_answered, responseTo, sign_encodeWord, ret_eq_ok]
  · rw [exec_bexp s hs, h.bexp_toNat hs, formatBexp_encodeWord s sg hx hb, ← hbits, BitVec.ofInt_natCast]
  · rw [exec_xdig s hs, h.digits_encodeWord sg hx hb]
    simp only [hlt]

/-! ### Decode, then encode (R147 b) -/

/-- A combination field is the one that `COMBOENC` builds from what it names. -/
theorem comboenc_eq_of_fields {c : BitVec 5} (hc : c.toNat < 30) {digit : BitVec 4} {exphi : BitVec 2}
    (hlead : fieldLead c = digit.toNat) (hexphi : fieldExphi c = exphi.toNat) : comboenc digit exphi = c := by
  obtain ⟨digit', exphi', he, hd, rfl⟩ := exists_comboenc_eq hc
  obtain ⟨hlead', hexphi', -⟩ := fields_comboenc he hd
  rw [BitVec.eq_of_toNat_eq (hlead.symm.trans hlead'), BitVec.eq_of_toNat_eq (hexphi.symm.trans hexphi')]

theorem bexp_highBits (s : State) (w : Word) : (s.bexp w).extractLsb' 8 2 = s.exphi w :=
  BitVec.extractLsb'_append_eq_left

theorem bexp_lowBits (s : State) (w : Word) : (s.bexp w).extractLsb' 0 8 = ec w :=
  BitVec.extractLsb'_append_eq_right

/-- From the sign, the exponent and the digits of a word `encode_word` builds that word with canonical groups. -/
theorem State.TablesLoaded.encodeWord_of_holdsDigits {s : State} (h : s.TablesLoaded) {w b : Word}
    (hs : special w = false) (hb : HoldsDigitsOf w b) : s.encodeWord (sign w) (s.bexp w) b = canonicalWord w := by
  have hcf : comboenc (b.extractLsb' 60 4) (s.exphi w) = cf w :=
    comboenc_eq_of_fields (cf_lt_of_not_special hs) hb.lead (h.exphi_toNat hs).symm
  have hgrp : ∀ j < 5, s.bcd2dpd (b.extractLsb' (12 * j) 12) = canonicalize (grp w (4 - j)) := fun j hj => by
    rw [← hb.block j hj, h.bcd2dpd_dpdByRule]
  rw [State.encodeWord, bexp_highBits, bexp_lowBits, hcf, highFields_eq_extractLsb', canonicalWord]
  rw [hgrp 0 (by decide), hgrp 1 (by decide), hgrp 2 (by decide), hgrp 3 (by decide), hgrp 4 (by decide)]

/-- A word of the anomaly reads as zero, and as a zero it is built again with combination field 0. -/
theorem State.TablesLoaded.encodeWord_of_anomaly {s : State} (h : s.TablesLoaded) {w : Word} (hs : special w = false)
    (ha : readsAsZeroAnomaly w = true) :
    s.encodeWord (sign w) (s.bexp w) 0 = mkWord (sign w) 0 (ec w) 0 := by
  obtain ⟨hcf, -⟩ := (readsAsZeroAnomaly_iff w).mp ha
  have hexphi : s.exphi w = 0 := by
    apply BitVec.eq_of_toNat_eq
    rw [h.exphi_toNat hs, hcf]
    decide
  refine word_ext ?_ ?_ ?_ fun k hk => ?_
  · rw [sign_encodeWord, sign_mkWord]
  · rw [cf_encodeWord_eq_comboenc, bexp_highBits, hexphi, cf_mkWord]
    decide
  · rw [ec_encodeWord, bexp_lowBits, ec_mkWord]
  · rw [grp_eq_zero_of_cc_eq_zero (cc_mkWord ..) hk, ← Nat.sub_sub_self (Nat.le_of_lt_succ hk),
      h.grp_encodeWord _ (by decide) (by omega), extractLsb'_of_zero, dpdEncodeByRule_zero]

/-- The low bits of a number are the number in fewer bits. -/
theorem extractLsb'_ofNat {n m : Nat} (k : Nat) (hmn : m ≤ n) :
    (BitVec.ofNat n k).extractLsb' 0 m = BitVec.ofNat m k := by
  rw [← BitVec.setWidth_eq_extractLsb' hmn, BitVec.setWidth_ofNat_of_le hmn]

/-- Settles O47: the exponent that `BEXP` answers lies in the window and the digits that `XDIG` answers are valid, so
`ENCBCD` builds a word from both and the sign. -/
theorem decodeThenEncodeGivesTheCanonicalWord : Obligations.DecodeThenEncodeGivesTheCanonicalWord := by
  intro s w h hw hs
  have hexp : (s.bexp w).toNat ≤ 767 := h.bexp_toNat hs ▸ formatBexp_le hs
  have hint : (BitVec.ofNat 32 (s.bexp w).toNat).toInt = (s.bexp w).toNat := by
    rw [← BitVec.ofInt_natCast, BitVec.toInt_ofInt_eq_self (by decide) (by omega) (by omega)]
  have hbits : (BitVec.ofNat 32 (s.bexp w).toNat).extractLsb' 0 10 = s.bexp w := by
    rw [extractLsb'_ofNat _ (by decide), BitVec.ofNat_toNat, BitVec.setWidth_eq]
  refine ⟨_, _, exec_bexp s hs, exec_xdig s hs, ?_⟩
  rw [extractLsb'_ofNat _ (by decide), exec_encbcd s hw (by omega) (by omega) _ (h.validDigits_digits hs), hbits]
  cases ha : readsAsZeroAnomaly w with
  | true =>
    rw [digits_of_isZero s w (isZero_of_anomaly ha), h.encodeWord_of_anomaly hs ha]
    rfl
  | false =>
    rw [h.encodeWord_of_holdsDigits hs (h.holdsDigitsOf_digits hs ha)]
    rfl

/-! ### Packed digits (R147 c) -/

theorem State.TablesLoaded.exec_w2pd_encodeWord {s : State} (h : s.TablesLoaded) (hw : s.hwAvail = true)
    (sg : BitVec 1) {x : BitVec 10} (hx : x.toNat ≤ 767) {b : BitVec 60} (hb : validDigits b 15 = true) :
    exec (.w2pd (s.encodeWord sg x (b.setWidth 64))) s
      = .next (s.answered (.ok (b ++ (if sg = 1 ∧ b ≠ 0 then 0xD#4 else 0xC#4)))) := by
  have hvalid := validDigits_setWidth hb
  have hs := special_encodeWord s sg hx hvalid
  have hno : b.setWidth 64 ≠ 0x8000000000000000 := fun heq => by
    have htop := nibble_setWidth_top b
    rw [heq] at htop
    exact absurd htop (by decide)
  have hdigits : s.digits (s.encodeWord sg x (b.setWidth 64)) = b.setWidth 64 := by
    rw [h.digits_encodeWord sg hx hvalid, if_neg fun ⟨heq, _⟩ => hno heq]
  have hlow : (b.setWidth 64).extractLsb' 0 60 = b := extractLsb'_setWidth_self b (by decide)
  have hzero : b.setWidth 64 = 0 ↔ b = 0 := by
    refine ⟨fun heq => ?_, fun heq => heq ▸ rfl⟩
    rw [← hlow, heq, extractLsb'_of_zero]
  have hz : isZero (s.encodeWord sg x (b.setWidth 64)) = false ↔ b ≠ 0 := by
    rw [Bool.eq_false_iff, ne_eq, ← h.digits_eq_zero_iff hs, hdigits, hzero]
  rw [exec_w2pd s hw hs (by rw [hdigits]; exact nibble_setWidth_top b), hdigits, hlow, sign_encodeWord]
  simp only [hz]

theorem sign_of_negativeCode (c : BitVec 4) : BitVec.ofBool (negativeCode c) = 1 ↔ c = 0xB ∨ c = 0xD := by
  revert c
  decide

/-- Settles O48: 15 digits are read back without exception, since the anomaly has 16. -/
theorem packedRoundTripKeepsTheDigits : Obligations.PackedRoundTripKeepsTheDigits := by
  intro s x p h hw hlo hhi hp
  have hx : (x.extractLsb' 0 10).toNat ≤ 767 := by
    have hbits := exponentBits_toNat hlo hhi
    omega
  refine ⟨_, exec_encpd s hw hlo hhi hp, ?_⟩
  rw [h.exec_w2pd_encodeWord hw _ hx hp]
  simp only [sign_of_negativeCode]

/-! ### `UVAL` after `ENCLONG` (R147 d) -/

theorem bcdOf_eq_eightZeros_iff {m : Nat} (hm : m ≤ 9999999999999999) :
    bcdOf m = 0x8000000000000000 ↔ m = 8000000000000000 := by
  refine ⟨fun heq => ?_, fun heq => heq ▸ by decide⟩
  rw [← bcdValue_bcdOf hm, heq]
  decide

/-- Settles O49: the digits read back are those of the magnitude, but for the anomaly. -/
theorem uvalOfEnclongIsTheMagnitude : Obligations.UvalOfEnclongIsTheMagnitude := by
  intro s x n h hw hlo hhi hn
  have hbits := exponentBits_toNat hlo hhi
  have hx : (x.extractLsb' 0 10).toNat ≤ 767 := by omega
  have hlt : (x.extractLsb' 0 10).toNat < 256 ↔ x.toInt < 256 := by omega
  have hvalid := validDigits_bcdOf n.toInt.natAbs
  refine ⟨_, exec_enclong s hw hlo hhi hn, ?_⟩
  rw [exec_uval s (special_encodeWord s _ hx hvalid) hw, h.digits_encodeWord _ hx hvalid]
  have hcond : (bcdOf n.toInt.natAbs = 0x8000000000000000 ∧ (x.extractLsb' 0 10).toNat < 256)
      ↔ n.toInt.natAbs = 8000000000000000 ∧ x.toInt < 256 := by
    rw [bcdOf_eq_eightZeros_iff hn, hlt]
  by_cases ha : n.toInt.natAbs = 8000000000000000 ∧ x.toInt < 256
  · rw [if_pos (hcond.mpr ha), if_pos ha, bcdValue_zero]
    rfl
  · rw [if_neg (mt hcond.mp ha), if_neg ha, bcdValue_bcdOf hn]

end Sys2Proof.Machine
end

section
/-! Packed bytes as 64-bit values (43_ancillary.md R163) and as digits. -/

namespace Sys2Proof.Machine

/-! ### `pack_be` and `unpack_be` -/

/-- Zero bytes in front do not change the number. -/
theorem packNat_replicate_append (n : Nat) (bytes : List Byte) :
    packNat (List.replicate n 0#8 ++ bytes) = packNat bytes := by
  induction n with
  | zero => rfl
  | succ n ih => simpa [List.replicate_succ, packNat] using ih

theorem packNat_lt (bytes : List Byte) : packNat bytes < 256 ^ bytes.length := by
  induction bytes with
  | nil => exact Nat.one_pos
  | cons b bytes ih =>
    have hbyte : b.toNat * 256 ^ bytes.length ≤ 255 * 256 ^ bytes.length :=
      Nat.mul_le_mul_right _ (Nat.le_of_lt_succ b.isLt)
    rw [packNat, List.length_cons, Nat.pow_succ]
    omega

/-- Byte `i`, the most significant first, is place `length - 1 - i` in base 256. -/
theorem packNat_byte {bytes : List Byte} {i : Nat} (hi : i < bytes.length) :
    packNat bytes / 256 ^ (bytes.length - 1 - i) % 256 = bytes[i].toNat := by
  induction bytes generalizing i with
  | nil => exact absurd hi (Nat.not_lt_zero i)
  | cons b bytes ih =>
    cases i with
    | zero =>
      have hlt := packNat_lt bytes
      have hb := b.isLt
      rw [packNat, List.length_cons, Nat.add_sub_cancel, Nat.sub_zero, Nat.add_comm,
        Nat.add_mul_div_right _ _ (Nat.pow_pos (by decide)), Nat.div_eq_of_lt hlt]
      simpa using Nat.mod_eq_of_lt hb
    | succ i =>
      have hlt : i < bytes.length := Nat.lt_of_succ_lt_succ hi
      have hsplit : 256 ^ bytes.length = 256 * 256 ^ i * 256 ^ (bytes.length - 1 - i) := by
        rw [← Nat.pow_succ', ← Nat.pow_add]
        congr 1
        omega
      rw [packNat, List.length_cons, show bytes.length + 1 - 1 - (i + 1) = bytes.length - 1 - i by omega, hsplit,
        ← Nat.mul_assoc, Nat.add_comm, Nat.add_mul_div_right _ _ (Nat.pow_pos (by decide)), Nat.mul_left_comm,
        Nat.add_mul_mod_self_left]
      exact ih hlt

theorem unpackBe_length (p : Word) : (unpackBe p).length = 8 := by
  simp [unpackBe]

theorem packBe_toNat {bytes : List Byte} (h : bytes.length ≤ 8) : (packBe bytes).toNat = packNat bytes := by
  have hle : 256 ^ bytes.length ≤ 256 ^ 8 := Nat.pow_le_pow_right (by decide) h
  have hlt : packNat bytes < 2 ^ 64 := Nat.lt_of_lt_of_le (packNat_lt bytes) hle
  rw [packBe, BitVec.toNat_ofNat, Nat.mod_eq_of_lt hlt]

/-- Eight packed bytes are unpacked again. -/
theorem unpackBe_packBe_of_eight {bytes : List Byte} (h : bytes.length = 8) : unpackBe (packBe bytes) = bytes := by
  apply List.ext_getElem (by rw [unpackBe_length, h])
  intro i hi hi'
  have hbyte := packNat_byte hi'
  apply BitVec.eq_of_toNat_eq
  simp only [unpackBe, List.getElem_map, List.getElem_range, BitVec.extractLsb'_toNat]
  rw [packBe_toNat (Nat.le_of_eq h), Nat.shiftRight_eq_div_pow, ← hbyte, h,
    show 56 - 8 * i = 8 * (8 - 1 - i) by omega, Nat.pow_mul]

theorem unpackBe_packBe {bytes : List Byte} (h : bytes.length ≤ 8) :
    unpackBe (packBe bytes) = List.replicate (8 - bytes.length) 0#8 ++ bytes := by
  have hpad : packBe (List.replicate (8 - bytes.length) 0#8 ++ bytes) = packBe bytes := by
    rw [packBe, packNat_replicate_append, packBe]
  have hlength : (List.replicate (8 - bytes.length) 0#8 ++ bytes).length = 8 := by
    rw [List.length_append, List.length_replicate]
    omega
  rw [← hpad, unpackBe_packBe_of_eight hlength]

/-- Every bit of a value stands in one of its bytes. -/
theorem unpackBe_injective {p p' : Word} (h : unpackBe p = unpackBe p') : p = p' := by
  have hbyte : ∀ i < 8, p.extractLsb' (56 - 8 * i) 8 = p'.extractLsb' (56 - 8 * i) 8 := by
    simpa only [unpackBe, List.map_inj_left, List.mem_range] using h
  apply BitVec.eq_of_getLsbD_eq
  intro k hk
  have hbit := congrArg (·.getLsbD (k % 8)) (hbyte (7 - k / 8) (by omega))
  simpa [Nat.mod_lt, show 56 - 8 * (7 - k / 8) + k % 8 = k by omega] using hbit

theorem packBe_unpackBe (p : Word) : packBe (unpackBe p) = p :=
  unpackBe_injective (unpackBe_packBe_of_eight (unpackBe_length p))

/-- Settles O53: packing pads with zero bytes, and a value is determined by its eight bytes. -/
theorem unpackingPackedBytesPadsThem : Obligations.UnpackingPackedBytesPadsThem :=
  ⟨fun _ => unpackBe_packBe, packBe_unpackBe⟩

/-! ### Values and bytes as digits -/

/-- The lowest `n` nibbles of a vector, the most significant first. -/
def digitsDown {m : Nat} (b : BitVec m) (n : Nat) : List (BitVec 4) := (List.range n).reverse.map (nibble b)

theorem digitsDown_succ {m : Nat} (b : BitVec m) (n : Nat) : digitsDown b (n + 1) = nibble b n :: digitsDown b n := by
  simp [digitsDown, List.range_succ]

theorem digitsDown_length {m : Nat} (b : BitVec m) (n : Nat) : (digitsDown b n).length = n := by
  simp [digitsDown]

theorem digitsDown_congr {m m' : Nat} {b : BitVec m} {b' : BitVec m'} {n : Nat}
    (h : ∀ k < n, nibble b k = nibble b' k) : digitsDown b n = digitsDown b' n := by
  simpa [digitsDown, List.map_inj_left] using h

theorem any_digitsDown {m : Nat} (b : BitVec m) (n : Nat) (p : BitVec 4 → Bool) :
    (digitsDown b n).any p = true ↔ ∃ k, k < n ∧ p (nibble b k) = true := by
  simp only [digitsDown, List.any_map, List.any_reverse, List.any_eq_true, List.mem_range, Function.comp_apply]

/-- A value of 60 bits is determined by its 15 nibbles. -/
theorem eq_of_digitsDown_eq {b b' : BitVec 60} (h : digitsDown b 15 = digitsDown b' 15) : b = b' := by
  have hnibble : ∀ k < 15, nibble b k = nibble b' k := by
    simpa only [digitsDown, List.map_inj_left, List.mem_reverse, List.mem_range] using h
  apply BitVec.eq_of_getLsbD_eq
  intro i hi
  have hbit := congrArg (·.getLsbD (i % 4)) (hnibble (i / 4) (by omega))
  simpa [nibble, Nat.mod_lt, Nat.div_add_mod] using hbit

/-- The digits of bytes, the high nibble of each first. -/
def byteDigits (bytes : List Byte) : List (BitVec 4) := bytes.flatMap fun x => [hiNibble x, loNibble x]

theorem byteDigits_append (l l' : List Byte) : byteDigits (l ++ l') = byteDigits l ++ byteDigits l' :=
  List.flatMap_append

theorem byteDigits_replicate_zero (n : Nat) : byteDigits (List.replicate n 0#8) = List.replicate (2 * n) 0#4 := by
  induction n with
  | zero => rfl
  | succ n ih =>
    rw [List.replicate_succ, byteDigits, List.flatMap_cons]
    exact congrArg ([0#4, 0#4] ++ ·) ih

/-- The digits of the bytes of a value are its nibbles. -/
theorem byteDigits_unpackBe (p : Word) : byteDigits (unpackBe p) = digitsDown p 16 := by
  have hbyte : ∀ i < 8, [hiNibble (p.extractLsb' (56 - 8 * i) 8), loNibble (p.extractLsb' (56 - 8 * i) 8)]
      = [nibble p (15 - 2 * i), nibble p (14 - 2 * i)] := fun i hi => by
    simp only [hiNibble, loNibble, nibble]
    rw [extractLsb'_extractLsb'_of_add_le p (by decide), extractLsb'_extractLsb'_of_add_le p (by decide),
      show 56 - 8 * i + 4 * 1 = 4 * (15 - 2 * i) by omega, show 56 - 8 * i + 4 * 0 = 4 * (14 - 2 * i) by omega]
  calc byteDigits (unpackBe p)
    _ = (List.range 8).flatMap fun i => [nibble p (15 - 2 * i), nibble p (14 - 2 * i)] := by
      rw [byteDigits, unpackBe, List.flatMap_map]
      exact congrArg List.flatten (List.map_congr_left fun i hi => hbyte i (List.mem_range.mp hi))
    _ = digitsDown p 16 := rfl

/-- The digits of packed bytes are the digit string and the sign code. -/
theorem byteDigits_toList (b : PackedBytes) : byteDigits b.toList = b.digitString ++ [loNibble b.last] := by
  rw [PackedBytes.toList, byteDigits_append, PackedBytes.digitString, List.append_assoc]
  rfl

/-- A packed value is 15 digits and a sign code. -/
theorem digitsDown_packed (p : Word) : digitsDown p 16 = digitsDown (p.extractLsb' 4 60) 15 ++ [nibble p 0] := by
  have hnibble : ∀ k < 15, nibble p (k + 1) = nibble (p.extractLsb' 4 60) k := fun k hk => by
    rw [nibble, nibble, extractLsb'_extractLsb'_of_add_le p (by omega), Nat.mul_succ, Nat.add_comm]
  rw [digitsDown, List.range_succ_eq_map, List.reverse_cons, List.map_append, ← List.map_reverse, List.map_map,
    digitsDown]
  congr 1
  exact List.map_congr_left fun k hk => hnibble k (by simpa using hk)

section
variable {b : PackedBytes} (hlen : b.toList.length ≤ 8)
include hlen

/-- At most 8 packed bytes as a value: zeros, the digit string, the sign code. -/
theorem digitsDown_packBe : digitsDown ((packBe b.toList).extractLsb' 4 60) 15 ++ [nibble (packBe b.toList) 0]
    = List.replicate (2 * (8 - b.toList.length)) 0#4 ++ b.digitString ++ [loNibble b.last] := by
  rw [← digitsDown_packed, ← byteDigits_unpackBe, unpackBe_packBe hlen, byteDigits_append, byteDigits_replicate_zero,
    byteDigits_toList, List.append_assoc]

theorem digits_packBe : digitsDown ((packBe b.toList).extractLsb' 4 60) 15
    = List.replicate (2 * (8 - b.toList.length)) 0#4 ++ b.digitString :=
  List.append_inj_left' (digitsDown_packBe hlen) rfl

theorem signCode_packBe : nibble (packBe b.toList) 0 = loNibble b.last := by
  obtain ⟨hcode, -⟩ := List.cons.inj (List.append_inj_right' (digitsDown_packBe hlen) rfl)
  exact hcode

end

end Sys2Proof.Machine
end

section
/-! The number a digit string spells (43_ancillary.md R165). -/

namespace Sys2Proof.Machine

theorem stringValue_append_singleton (t : List (BitVec 4)) (d : BitVec 4) :
    stringValue (t ++ [d]) = 10 * stringValue t + d.toNat := by
  rw [stringValue, List.foldl_append]
  rfl

theorem stringValue_cons_eq_foldl (d : BitVec 4) (t : List (BitVec 4)) :
    stringValue (d :: t) = t.foldl (fun n d => 10 * n + d.toNat) d.toNat := by
  rw [stringValue, List.foldl_cons, Nat.mul_zero, Nat.zero_add]

/-- A number that stands before a digit string counts 10 to the number of digits. -/
theorem foldl_digits_eq (n : Nat) (t : List (BitVec 4)) :
    t.foldl (fun n d => 10 * n + d.toNat) n = n * 10 ^ t.length + stringValue t := by
  induction t generalizing n with
  | nil => simp [stringValue]
  | cons d t ih =>
    rw [List.foldl_cons, ih, stringValue_cons_eq_foldl, ih, List.length_cons, Nat.pow_succ', Nat.add_mul, Nat.add_assoc, Nat.mul_left_comm,
      Nat.mul_assoc 10, Nat.mul_left_comm 10]

/-- The first digit counts 10 to the number of digits after it. -/
theorem stringValue_cons (d : BitVec 4) (t : List (BitVec 4)) :
    stringValue (d :: t) = d.toNat * 10 ^ t.length + stringValue t := by
  rw [stringValue_cons_eq_foldl, foldl_digits_eq]

theorem stringValue_replicate_zero_append (n : Nat) (t : List (BitVec 4)) :
    stringValue (List.replicate n 0#4 ++ t) = stringValue t := by
  induction n with
  | zero => rfl
  | succ n ih =>
    rw [List.replicate_succ, List.cons_append, stringValue_cons, ih]
    simp

/-- The nibbles of a stream spell its value. -/
theorem stringValue_digitsDown (b : Word) (n : Nat) : stringValue (digitsDown b n) = bcdValueLow b n := by
  induction n with
  | zero => rfl
  | succ n ih => rw [digitsDown_succ, stringValue_cons, digitsDown_length, ih, bcdValueLow, Nat.add_comm]

/-- So do 15 digits with a 0 before them. -/
theorem stringValue_digitsDown_setWidth (b : BitVec 60) :
    stringValue (digitsDown b 15) = bcdValue (b.setWidth 64) := by
  have hlow : digitsDown b 15 = digitsDown (b.setWidth 64) 15 :=
    digitsDown_congr fun k hk => (nibble_setWidth_of_lt b hk).symm
  rw [bcdValue, ← stringValue_digitsDown, digitsDown_succ _ 15, nibble_setWidth_top, ← hlow]
  exact (stringValue_replicate_zero_append 1 _).symm

/-- A digit string has a nibble above 9 exactly when its value is no valid stream. -/
theorem any_digitsDown_gt_nine {m : Nat} (b : BitVec m) (n : Nat) :
    (digitsDown b n).any (fun d => 9 < d.toNat) = !validDigits b n := by
  rw [Bool.eq_iff_iff, any_digitsDown, Bool.not_eq_true', Bool.eq_false_iff, ne_eq, validDigits_iff]
  simp only [decide_eq_true_eq, Classical.not_forall, Nat.not_le, exists_prop]

/-- `p` fails on every zero, so it does not matter how many stand in front. -/
theorem any_replicate_zero_append {p : BitVec 4 → Bool} (hp : p 0#4 = false) (n : Nat) (t : List (BitVec 4)) :
    (List.replicate n 0#4 ++ t).any p = t.any p := by
  rw [List.any_append, List.any_replicate]
  simp [hp]

theorem any_digitsDown_ne_zero_iff (b : BitVec 60) : (digitsDown b 15).any (· ≠ 0#4) = true ↔ b ≠ 0 := by
  have hzero : b = 0 ↔ ∀ k < 15, nibble b k = 0 := by
    refine ⟨?_, fun hnibble => eq_of_digitsDown_eq (digitsDown_congr fun k hk => ?_)⟩
    · rintro rfl k hk
      exact extractLsb'_of_zero
    · rw [hnibble k hk, nibble, extractLsb'_of_zero]
  rw [any_digitsDown, ne_eq, hzero]
  simp only [decide_eq_true_eq, Classical.not_forall, exists_prop]
  rfl

end Sys2Proof.Machine
end

section
/-! The two paths of `decodePackedDecimal` and the fast path of `encodePackedDecimal` (43_ancillary.md R164 to R168). -/

namespace Sys2Proof.Machine

/-! ### The slow path of decoding (R165) -/

theorem decodeSlow_of_valid {b : PackedBytes} (h : b.digitString.any (fun d => 9 < d.toNat) = false) (scale : Int) :
    decodeSlow b scale = .number ⟨if loNibble b.last = 0xB ∨ loNibble b.last = 0xD then -(stringValue b.digitString : Int)
      else stringValue b.digitString, -scale⟩ := by
  simp only [decodeSlow, h, Bool.false_eq_true, if_false, negativeCode_iff]

theorem decodeSlow_of_badDigit {b : PackedBytes} (h : b.digitString.any (fun d => 9 < d.toNat) = true) (scale : Int) :
    decodeSlow b scale = .formatError := by
  simp only [decodeSlow, h, if_true]

/-! ### The fast path of decoding (R164) -/

theorem fastAdmissible_iff (s : State) (b : PackedBytes) (scale : Int) : fastAdmissible s b scale = true ↔
    b.toList.length ≤ 8 ∧ s.hwAvail = true ∧ 0 ≤ 398 - scale ∧ 398 - scale ≤ 766 := by
  simp [fastAdmissible, and_assoc]

/-- The digits and the sign code of packed bytes as `ENCPD` receives them. -/
def PackedBytes.digits (b : PackedBytes) : BitVec 60 := (packBe b.toList).extractLsb' 4 60

section
variable {b : PackedBytes} (hlen : b.toList.length ≤ 8)
include hlen

theorem stringValue_digitString : stringValue b.digitString = bcdValue (b.digits.setWidth 64) := by
  rw [← stringValue_digitsDown_setWidth, PackedBytes.digits, digits_packBe hlen, stringValue_replicate_zero_append]

theorem any_digitString_gt_nine : b.digitString.any (fun d => 9 < d.toNat) = !validDigits b.digits 15 := by
  rw [← any_digitsDown_gt_nine, PackedBytes.digits, digits_packBe hlen, any_replicate_zero_append (by decide)]

theorem any_digitString_ne_zero_iff : b.digitString.any (· ≠ 0#4) = true ↔ b.digits ≠ 0 := by
  rw [← any_digitsDown_ne_zero_iff, PackedBytes.digits, digits_packBe hlen, any_replicate_zero_append (by decide)]

end

/-- The word that the fast path builds from valid digits. -/
def fastWord (s : State) (b : PackedBytes) (scale : Int) : Word :=
  s.encodeWord (BitVec.ofBool (negativeCode (loNibble b.last))) ((BitVec.ofInt 32 (398 - scale)).extractLsb' 0 10)
    (b.digits.setWidth 64)

/-- The exponent operand holds the exponent that the admission test looked at. -/
theorem exponentOperand_toInt {s : State} {b : PackedBytes} {scale : Int} (hadm : fastAdmissible s b scale = true) :
    (BitVec.ofInt 32 (398 - scale)).toInt = 398 - scale := by
  obtain ⟨-, -, hlo, hhi⟩ := (fastAdmissible_iff s b scale).mp hadm
  exact BitVec.toInt_ofInt_eq_self (by decide) (by omega) (by omega)

theorem exponentOperand_bits {s : State} {b : PackedBytes} {scale : Int} (hadm : fastAdmissible s b scale = true) :
    (((BitVec.ofInt 32 (398 - scale)).extractLsb' 0 10).toNat : Int) = 398 - scale := by
  obtain ⟨-, -, hlo, hhi⟩ := (fastAdmissible_iff s b scale).mp hadm
  have hint := exponentOperand_toInt hadm
  rw [exponentBits_toNat (by omega) (by omega), hint]

section
variable {s : State} {b : PackedBytes} {scale : Int} (hadm : fastAdmissible s b scale = true)
include hadm

theorem decodeFast_of_valid (hvalid : validDigits b.digits 15 = true) :
    decodeFast s b scale = some (.word (fastWord s b scale)) := by
  obtain ⟨hlen, hw, hlo, hhi⟩ := (fastAdmissible_iff s b scale).mp hadm
  have hint := exponentOperand_toInt hadm
  have hexec := exec_encpd s hw (hint ▸ hlo) (by omega) hvalid
  rw [decodeFast, if_pos hadm, evaluate_of_exec _ _ _ hexec, signCode_packBe hlen]
  rfl

theorem decodeFast_of_badDigit (hvalid : validDigits b.digits 15 = false) :
    decodeFast s b scale = some .formatError := by
  obtain ⟨-, hw, hlo, hhi⟩ := (fastAdmissible_iff s b scale).mp hadm
  have hint := exponentOperand_toInt hadm
  have hexec := exec_encpd_of_badDigit s hw (hint ▸ hlo) (by omega) hvalid
  rw [decodeFast, if_pos hadm, evaluate_of_exec _ _ _ hexec]

end

/-- The fast path answers a word only where it is admissible and the digits are valid. -/
theorem eq_fastWord_of_decodeFast {s : State} {b : PackedBytes} {scale : Int} {w : Word}
    (h : decodeFast s b scale = some (.word w)) :
    fastAdmissible s b scale = true ∧ validDigits b.digits 15 = true ∧ fastWord s b scale = w := by
  have hadm : fastAdmissible s b scale = true := by
    refine Decidable.byContradiction fun hno => ?_
    rw [decodeFast, if_neg hno] at h
    cases h
  cases hvalid : validDigits b.digits 15 with
  | true =>
    rw [decodeFast_of_valid hadm hvalid] at h
    cases h
    exact ⟨hadm, rfl, rfl⟩
  | false =>
    rw [decodeFast_of_badDigit hadm hvalid] at h
    cases h

/-- The number of the word is the one that the digit string spells. -/
theorem State.TablesLoaded.wordValue_fastWord {s : State} (h : s.TablesLoaded) {b : PackedBytes} {scale : Int}
    (hadm : fastAdmissible s b scale = true) (hvalid : validDigits b.digits 15 = true) :
    wordValue (fastWord s b scale)
      = ⟨if loNibble b.last = 0xB ∨ loNibble b.last = 0xD then -(stringValue b.digitString : Int)
          else stringValue b.digitString, -scale⟩ := by
  obtain ⟨hlen, -, hlo, hhi⟩ := (fastAdmissible_iff s b scale).mp hadm
  have hb := validDigits_setWidth hvalid
  have hbits := exponentOperand_bits hadm
  have hx : ((BitVec.ofInt 32 (398 - scale)).extractLsb' 0 10).toNat ≤ 767 := by omega
  have hexponent : (398 - scale : Int) - 398 = -scale := by omega
  have hsign : BitVec.ofBool (negativeCode (loNibble b.last)) = 1#1 ↔ loNibble b.last = 0xB ∨ loNibble b.last = 0xD :=
    sign_of_negativeCode _
  rw [wordValue, fastWord, sign_encodeWord, formatBexp_encodeWord s _ hx hb,
    (h.holdsDigitsOf_encodeWord _ hb hx).formatCoefficient, stringValue_digitString hlen, hbits, hexponent]
  simp only [hsign]

/-- Settles O54: both paths read the same digits and the same sign code, and the exponent is in the window. -/
theorem fastAndSlowDecodingAgree : Obligations.FastAndSlowDecodingAgree := by
  intro s b scale h hadm
  obtain ⟨hlen, -⟩ := (fastAdmissible_iff s b scale).mp hadm
  have hany := any_digitString_gt_nine hlen
  cases hvalid : validDigits b.digits 15 with
  | true =>
    refine .inl ⟨fastWord s b scale, decodeFast_of_valid hadm hvalid, ?_⟩
    rw [decodeSlow_of_valid (by rw [hany, hvalid]; rfl), h.wordValue_fastWord hadm hvalid]
  | false =>
    exact .inr ⟨decodeFast_of_badDigit hadm hvalid, decodeSlow_of_badDigit (by rw [hany, hvalid]; rfl) scale⟩

/-! ### The fast path of encoding (R166) -/

theorem encodeFast_of_exec {s : State} {w r : Word} (h : exec (.w2pd w) s = .next (s.answered (.ok r))) :
    encodeFast s w = some (unpackBe r) := by
  simp only [encodeFast, evaluate_of_exec s _ _ h]

/-- The packed bytes with another sign code. -/
def PackedBytes.withCode (b : PackedBytes) (code : BitVec 4) : PackedBytes := ⟨b.init, hiNibble b.last ++ code⟩

/-- Putting another code behind the digits is packing the bytes with another code. -/
theorem digits_append_code {b : PackedBytes} (hlen : b.toList.length ≤ 8) (code : BitVec 4) :
    b.digits ++ code = packBe (b.withCode code).toList := by
  have hlen' : (b.withCode code).toList.length ≤ 8 := by
    simpa [PackedBytes.toList, PackedBytes.withCode] using hlen
  have hhi : hiNibble (hiNibble b.last ++ code) = hiNibble b.last := BitVec.extractLsb'_append_eq_left
  have hlo : loNibble (hiNibble b.last ++ code) = code := BitVec.extractLsb'_append_eq_right
  have hdigits : (b.withCode code).digits = b.digits := by
    apply eq_of_digitsDown_eq
    rw [PackedBytes.digits, PackedBytes.digits, digits_packBe hlen, digits_packBe hlen']
    simp [PackedBytes.toList, PackedBytes.digitString, PackedBytes.withCode, hhi]
  have hpacked : (b.withCode code).digits ++ nibble (packBe (b.withCode code).toList) 0
      = packBe (b.withCode code).toList := by
    rw [PackedBytes.digits, nibble, BitVec.extractLsb'_append_extractLsb'_eq_extractLsb' (by rfl)]
    exact BitVec.extractLsb'_eq_self
  rw [← hpacked, hdigits, signCode_packBe hlen']
  exact congrArg (b.digits ++ ·) hlo.symm

/-- Settles O56: `W2PD` answers the digits that the word was built from with the normalised code, which are the packed
bytes with that code. -/
theorem fastEncodingReturnsThePaddedBytes : Obligations.FastEncodingReturnsThePaddedBytes := by
  intro s b scale w h hdecode
  obtain ⟨hadm, hvalid, rfl⟩ := eq_fastWord_of_decodeFast hdecode
  obtain ⟨hlen, hw, hlo, hhi⟩ := (fastAdmissible_iff s b scale).mp hadm
  have hx : ((BitVec.ofInt 32 (398 - scale)).extractLsb' 0 10).toNat ≤ 767 := by
    have hbits := exponentOperand_bits hadm
    omega
  have hlen' (code : BitVec 4) : (b.withCode code).toList.length = b.toList.length := by
    simp [PackedBytes.toList, PackedBytes.withCode]
  rw [fastWord, encodeFast_of_exec (h.exec_w2pd_encodeWord hw _ hx hvalid), digits_append_code hlen,
    unpackBe_packBe (Nat.le_trans (Nat.le_of_eq (hlen' _)) hlen), hlen', List.append_assoc]
  simp only [sign_of_negativeCode, any_digitString_ne_zero_iff hlen]
  rfl

end Sys2Proof.Machine
end

section
/-! The slow path of encoding, and decoding its bytes again (43_ancillary.md R167, R168). -/

namespace Sys2Proof.Machine

/-! ### The decimal digits of a number -/

theorem digitOf_toNat (m : Nat) : (BitVec.ofNat 4 (m % 10)).toNat = m % 10 := by
  rw [BitVec.toNat_ofNat]
  omega

/-- With enough fuel the digits, the most significant first, spell the number. -/
theorem stringValue_reverse_digitsUp {fuel m : Nat} (h : m < fuel) : stringValue (digitsUp fuel m).reverse = m := by
  induction fuel generalizing m with
  | zero => omega
  | succ fuel ih =>
    have hrest : stringValue (if m / 10 = 0 then [] else digitsUp fuel (m / 10)).reverse = m / 10 := by
      split
      next hzero => exact hzero.symm
      next hpos => exact ih (by omega)
    rw [digitsUp, List.reverse_cons, stringValue_append_singleton, hrest, digitOf_toNat]
    omega

theorem stringValue_decimalString (m : Nat) : stringValue (decimalString m) = m :=
  stringValue_reverse_digitsUp (Nat.lt_succ_self m)

theorem digitsUp_le_nine {fuel m : Nat} {d : BitVec 4} (h : d ∈ digitsUp fuel m) : d.toNat ≤ 9 := by
  induction fuel generalizing m with
  | zero => cases h
  | succ fuel ih =>
    rw [digitsUp, List.mem_cons] at h
    rcases h with rfl | hrest
    · rw [digitOf_toNat]
      omega
    · split at hrest
      next => cases hrest
      next => exact ih hrest

theorem decimalString_le_nine {m : Nat} {d : BitVec 4} (h : d ∈ decimalString m) : d.toNat ≤ 9 :=
  digitsUp_le_nine (List.mem_reverse.mp h)

/-! ### Two digits a byte -/

theorem byteDigits_pairUp {n : Nat} {t : List (BitVec 4)} (h : t.length = 2 * n) : byteDigits (pairUp t) = t := by
  induction n generalizing t with
  | zero =>
    obtain rfl := List.length_eq_zero_iff.mp h
    rfl
  | succ n ih =>
    match t, h with
    | a :: b :: rest, h =>
      have hrest : rest.length = 2 * n := by
        simp only [List.length_cons] at h
        omega
      have hhi : hiNibble (a ++ b) = a := BitVec.extractLsb'_append_eq_left
      have hlo : loNibble (a ++ b) = b := BitVec.extractLsb'_append_eq_right
      rw [pairUp, byteDigits, List.flatMap_cons, hhi, hlo]
      exact congrArg ([a, b] ++ ·) (ih hrest)

theorem byteDigits_length (bytes : List Byte) : (byteDigits bytes).length = 2 * bytes.length := by
  induction bytes with
  | nil => rfl
  | cons x bytes ih =>
    rw [byteDigits, List.flatMap_cons, List.length_append]
    change 2 + (byteDigits bytes).length = 2 * (bytes.length + 1)
    omega

/-- The bytes of an odd number of digits and a sign code are packed bytes with that digit string and that code. -/
theorem exists_packedBytes_of_pairUp {n : Nat} {t : List (BitVec 4)} (code : BitVec 4) (h : t.length + 1 = 2 * n) :
    ∃ b : PackedBytes, b.toList = pairUp (t ++ [code]) ∧ b.digitString = t ∧ loNibble b.last = code
      ∧ b.toList.length = n := by
  have hdigits : byteDigits (pairUp (t ++ [code])) = t ++ [code] := byteDigits_pairUp (by simpa using h)
  have hlength : (pairUp (t ++ [code])).length = n := by
    have hcount := congrArg List.length hdigits
    rw [byteDigits_length, List.length_append, List.length_singleton] at hcount
    omega
  obtain hnil | ⟨init, last, hbytes⟩ := List.eq_nil_or_concat (pairUp (t ++ [code]))
  · rw [hnil] at hdigits
    simp [byteDigits] at hdigits
  · rw [List.concat_eq_append] at hbytes
    refine ⟨⟨init, last⟩, hbytes.symm, ?_⟩
    have hsplit : (⟨init, last⟩ : PackedBytes).digitString ++ [loNibble last] = t ++ [code] := by
      rw [← hdigits, hbytes]
      exact (byteDigits_toList ⟨init, last⟩).symm
    obtain ⟨hstring, hcode⟩ := List.append_inj' hsplit rfl
    exact ⟨hstring, (List.cons.inj hcode).1, (congrArg List.length hbytes).symm.trans hlength⟩

/-! ### The round trip -/

theorem decodeSlow_of_digitString {b : PackedBytes} {k : Nat} {n : Int}
    (hstring : b.digitString = List.replicate k 0#4 ++ decimalString n.natAbs)
    (hcode : loNibble b.last = if n < 0 then 0xD#4 else 0xC#4) (scale : Int) :
    decodeSlow b scale = .number ⟨n, -scale⟩ := by
  have hvalid : b.digitString.any (fun d => 9 < d.toNat) = false := by
    rw [hstring, any_replicate_zero_append (by decide)]
    simpa using fun d => decimalString_le_nine
  have hvalue : stringValue b.digitString = n.natAbs := by
    rw [hstring, stringValue_replicate_zero_append, stringValue_decimalString]
  have hsign : loNibble b.last = 0xB ∨ loNibble b.last = 0xD ↔ n < 0 := by
    by_cases hn : n < 0 <;> simp [hcode, hn]
  have hnumber : (if n < 0 then -(n.natAbs : Int) else n.natAbs) = n := by
    split <;> omega
  rw [decodeSlow_of_valid hvalid, hvalue]
  simp only [hsign, hnumber]

/-- Settles O55: the zeros in front make the number of digits odd, so that the sign code fills the last byte, and they do
not change the number. -/
theorem slowEncodingDecodesToTheSameNumber : Obligations.SlowEncodingDecodesToTheSameNumber := by
  intro n scale
  obtain ⟨b, hbytes, hstring, hcode, hlength⟩ := exists_packedBytes_of_pairUp
    (t := List.replicate (2 * (((decimalString n.natAbs).length + 2) / 2) - 1 - (decimalString n.natAbs).length) 0#4
      ++ decimalString n.natAbs)
    (n := ((decimalString n.natAbs).length + 2) / 2) (if n < 0 then 0xD#4 else 0xC#4) (by
      rw [List.length_append, List.length_replicate]
      omega)
  exact ⟨b, hbytes.symm, hlength, decodeSlow_of_digitString hstring hcode scale⟩

end Sys2Proof.Machine
end
